-- ==== Sys2Proof/Word.lean ====
section
/-! DEFINITION. The units every other file counts in: the 8-bit byte of the source (00_scope.md rule R4, "Byte width"),
the 32-bit register word of the host interface (20_memory.md rule R63), and byte sequences (00_scope.md section 6).
Times are mathematical integers, Int, in ticks of the time source (42_rx_path.md rules R190, R192). -/
namespace Sys2Proof

/-- A byte: an integer in [0, 255] (00_scope.md section 6). -/
abbrev Byte := BitVec 8

/-- A host register word, 32 bits (20_memory.md rule R63), and the command word (30_encoding.md rule R80). -/
abbrev Word := BitVec 32

/-- A finite sequence of bytes (00_scope.md section 6): payloads, frames, buffers. -/
abbrev Bytes := List Byte

end Sys2Proof
end

