-- ==== Sys2Proof/Config.lean ====
section
/-! DEFINITION. What an instance fixes for its whole life (00_scope.md rules R4, R5), the free values the spec leaves open,
and the one instance that State.reset is built from. -/
namespace Sys2Proof

/-- HEX_CASE_POLICY (00_scope.md rule R4; 41_codec.md rule R144): which checksum digits are accepted. -/
inductive HexCasePolicy where
  | lowerOnly
  | anyCaseText
  | anyCaseNumeric
deriving DecidableEq, Repr

/-- EOF_POLICY (00_scope.md rule R4; 42_rx_path.md rule R196): what the end of the peer's stream does to a waiting read. -/
inductive EofPolicy where
  | timeoutAtDeadline
  | transportError
deriving DecidableEq, Repr

/-- The implementation parameters of 00_scope.md rule R4, all OPEN in the spec. They are a field of State (the PARAM
registers show them), so a statement about every state holds for every value of them: log entry 3. -/
structure Params where
  /-- MAX_PACKET_LEN: the bytes of a received frame from `$` to `#` inclusive. -/
  maxPacketLen : Nat
  /-- RX_CHUNK_MAX: the most bytes one transport read delivers. -/
  rxChunkMax : Nat
  /-- IN_CAP: bytes of the IN buffer. -/
  inCap : Nat
  /-- OUT_CAP: bytes of the OUT buffer. -/
  outCap : Nat
  /-- TICKS_PER_UNIT: ticks of `now` in one time unit. -/
  ticksPerUnit : Nat
  /-- DEFAULT_RX_TIMEOUT in ticks, used when construction gives no timeout; > 0
  (92_eei_decisions.md D34; 93_implementation_defined.md I3; log entry 26). -/
  defaultRxTimeout : Nat
  hexCase : HexCasePolicy
  eof : EofPolicy
deriving DecidableEq, Repr

namespace Config

/-! Free values. Each is a constant with no body: no proof can know a value of it. The first argument is the number of
the draw (State.draws counts them), so that two draws need not agree. -/

/-- FREE VALUE (log entries 5 and 6): what a byte of the IN or OUT buffer holds that nothing has written since the draw of
that number (10_state.md rules R34, R35; 40_command_cycle.md rule R125). Arguments: the draw, the host address. -/
opaque freeByte : Nat → Nat → Byte

/-- FREE VALUE (log entry 7): the bytes of RXBUF after a failed frame scan, before the cut to RX_CHUNK_MAX
(44_packet_exchange.md rule R252). -/
opaque freeBytes : Nat → Bytes

/-- FREE VALUE (log entry 8): what a host read of RESULT, OUT_LEN or OUT returns before the host has seen DONE = 1
(20_memory.md rules R63, R69). -/
opaque freeWord : Nat → Word

/-- FREE VALUE (log entry 13): how many bytes of a transmit write cut short by an abort the peer received
(43_link_control.md rule R222). -/
opaque freeLength : Nat → Nat

/-- The parameters of the instance State.reset is: those 95_test_vectors.md uses (DESIGN CHOICE, log entry 3).
DEFAULT_RX_TIMEOUT, which that file leaves out, is the same 50 ticks as its CFG_TIMEOUT. -/
def resetParams : Params :=
  { maxPacketLen := 64, rxChunkMax := 16, inCap := 256, outCap := 256, ticksPerUnit := 10,
    defaultRxTimeout := 50, hexCase := .anyCaseText, eof := .timeoutAtDeadline }

/-- CFG_HOST of the reset instance: the block does not interpret it (DESIGN CHOICE, log entry 3). -/
def resetHost : Bytes := []

/-- CFG_PORT of the reset instance (95_test_vectors.md; DESIGN CHOICE, log entry 3). -/
def resetPort : BitVec 16 := 1234

/-- CFG_TIMEOUT of the reset instance, in ticks (95_test_vectors.md; DESIGN CHOICE, log entry 3). -/
def resetTimeout : Word := 50

end Config
end Sys2Proof
end

