-- ==== Sys2Proof/Syntax.lean ====
section
/-! DEFINITION. The sixteen commands of 30_encoding.md rule R84 (spec/opcode_table.json), one constructor each. The only
operand a command word carries is its flags (10_state.md rule R20: no command names a register operand), so the flags F0
and F1 that rule R84 gives a meaning are the constructors' arguments. -/
namespace Sys2Proof

inductive Instr where
  /-- 0x01 ENCODE_PAYLOAD (41_codec.md rule R150). -/
  | encodePayload
  /-- 0x02 DECODE_PAYLOAD (41_codec.md rule R151). -/
  | decodePayload
  /-- 0x03 COMPUTE_CHECKSUM (41_codec.md rule R152). -/
  | computeChecksum
  /-- 0x04 CREATE_PACKET (41_codec.md rule R153). F0 = CUSTOM_CK. -/
  | createPacket (customCk : Bool)
  /-- 0x05 SPLIT_PACKET (41_codec.md rule R154). -/
  | splitPacket
  /-- 0x06 VALIDATE_PACKET (41_codec.md rule R155). -/
  | validatePacket
  /-- 0x10 CONNECT (43_link_control.md rule R220). -/
  | connect
  /-- 0x11 DISCONNECT (43_link_control.md rule R221). -/
  | disconnect
  /-- 0x12 SET_ACK_MODE (43_link_control.md rule R223). F0 = ENABLE. -/
  | setAckMode (enable : Bool)
  /-- 0x20 SEND_PACKET (44_packet_exchange.md rule R240). F0 = CUSTOM_CK, F1 = CHECK_ACK. -/
  | sendPacket (customCk checkAck : Bool)
  /-- 0x21 CHECK_ACK (44_packet_exchange.md rule R242). -/
  | checkAck
  /-- 0x22 SEND_ACK (44_packet_exchange.md rule R243). -/
  | sendAck
  /-- 0x23 SEND_NACK (44_packet_exchange.md rule R244). -/
  | sendNack
  /-- 0x24 SEND_INTERRUPT (44_packet_exchange.md rule R245). -/
  | sendInterrupt
  /-- 0x30 RECV_PACKET (44_packet_exchange.md rule R250). F0 = VALIDATE_AND_ACK. -/
  | recvPacket (validateAndAck : Bool)
  /-- 0x31 RECV_AND_DECODE (44_packet_exchange.md rule R251). -/
  | recvAndDecode
deriving DecidableEq, Repr

end Sys2Proof
end

