-- ==== Sys2Proof/Machine/State.lean ====
section
/-! DEFINITION. The machine's state: the block's state element by element (10_state.md), the transport, the peer and the
time source (00_scope.md rule R3), the host's outstanding accesses, and what stops a step. All of it is plain data. -/
namespace Sys2Proof.Machine

/-! ## What stops a step -/

/-- Construction errors (70_reset_and_hazards.md rule R310; 93_implementation_defined.md I22): no instance results. Raised
by `construct` alone, never by a step. Both are safe: the block reports them itself. -/
inductive Fault where
  /-- 0x46 BAD_PORT: CFG_PORT outside [1, 65535]. Raised by `construct`. Safe. -/
  | badPort
  /-- 0x47 BAD_TIMEOUT: CFG_TIMEOUT ≤ 0. Raised by `construct`. Safe. -/
  | badTimeout
deriving DecidableEq, Repr

/-- What has no meaning: the host or the environment has broken its duty (20_memory.md rule R62; 42_rx_path.md rule R204).
No command's meaning answers with one of these. All are safe: no claim can be proved of a run that contains one. -/
inductive Refusal where
  /-- An instruction with no meaning yet, by mnemonic: raised by no arm of exec in this model. Safe. -/
  | notModelled (mnemonic : String)
  /-- Rule R62 (a): an access to an offset rule R60 does not list. Raised by hostRead and hostWrite. Safe. -/
  | unmappedOffset
  /-- Rule R62 (b): a read of CMD. Raised by hostRead. Safe. -/
  | readOfCmd
  /-- Rule R62 (c): a write to a read-only register or to the OUT window. Raised by hostWrite. Safe. -/
  | writeToReadOnly
  /-- Rule R62 (d): a register access that is not 32 bits wide. Raised by hostRead and hostWrite. Safe. -/
  | registerWidth
  /-- Rule R62 (e): an address that is not a multiple of the access's width. Raised by hostRead and hostWrite. Safe. -/
  | misaligned
  /-- Rule R62 (f): a write to CMD, IN, IN_LEN or ARG while STATUS.BUSY = 1, the abort of rule R222 apart. Raised by
  hostWrite. Safe. -/
  | busyWrite
  /-- An environment event outside the wait that names it, or before its time (rules R36, R195, R198, R200, R204). Raised by
  the environment's turns. Safe. -/
  | eventNotEnabled
  /-- Parameters that break rule R5, rule R60 or D34, or a configuration that does not fit its register. Raised by `construct`. Safe. -/
  | illFormedInstance
deriving DecidableEq, Repr

/-! ## Error codes -/

/-- The error causes of 60_exceptions.md rule R281, by name. Their numbers are `Err.code` (Machine/Flags.lean). -/
inductive Err where
  | escMissing
  | rleMissingCount
  | rleCountFraming
  | rleCountRange
  | pktTooShort
  | pktBadStart
  | pktBadDelim
  | pktPayloadFraming
  | pktCkSyntax
  | pktCkMismatch
  | nack
  | unexpectedAckByte
  | unexpectedSop
  | oversized
  | deadlineExpired
  | waitExpired
  | alreadyConnected
  | notConnected
  | badCustomChecksum
  | unknownCommand
  | splitTooShort
  | badPort
  | badTimeout
  | connectFailed
  | ioError
  | endOfStream
  | aborted
  | inLenRange
  | outOverflow
deriving DecidableEq, Repr

/-! ## PHASE (10_state.md rule R21): the program point of the current command -/

/-- Where the frame scan of 44_packet_exchange.md rule R246 stands: which byte its next ReadByte returns. -/
inductive ScanPoint where
  /-- the first byte, which must be `$` -/
  | sop
  /-- a byte of the body -/
  | body
  /-- the first checksum character -/
  | ck0
  /-- the second checksum character, after the first -/
  | ck1 (c0 : Byte)
deriving DecidableEq, Repr

/-- Which ReadByte (42_rx_path.md rule R197) a Refill serves. -/
inductive ReadPoint where
  /-- the one byte of AckWait (44_packet_exchange.md rule R241) -/
  | ack
  /-- a byte of RecvFrame (44_packet_exchange.md rule R246) -/
  | scan (pt : ScanPoint)
deriving DecidableEq, Repr

/-- Which transmit write (42_rx_path.md rule R198) the block waits in. -/
inductive TxPoint where
  /-- the write of SEND_PACKET, SEND_ACK, SEND_NACK or SEND_INTERRUPT -/
  | command
  /-- the `+` a receive sends for the frame it has validated -/
  | plus (frame : Bytes)
deriving DecidableEq, Repr

/-- The environment's answer to an open (42_rx_path.md rule R200). -/
inductive OpenAnswer where
  | opened
  | failed
deriving DecidableEq, Repr

/-- The environment's answer to a transmit (42_rx_path.md rule R198). -/
inductive TxAnswer where
  | done
  | failed
deriving DecidableEq, Repr

/-- The environment's answer to a refill (42_rx_path.md rule R195). -/
inductive RxAnswer where
  /-- Chunk: the bytes are in RXBUF -/
  | data
  | expired
  | error
  | endOfStream
deriving DecidableEq, Repr

/-- PHASE. A `wait` holds the answer once the environment has given it; the block goes on at its next step
(log entry 10). -/
inductive Phase where
  /-- no command in progress -/
  | idle
  /-- issued, not yet dispatched (40_command_cycle.md rule R121) -/
  | dispatch
  /-- at the start of the command's pseudocode -/
  | start
  /-- in OpenTransport -/
  | opening (answer : Option OpenAnswer)
  /-- in TxWrite of `packet` -/
  | sending (packet : Bytes) (pt : TxPoint) (answer : Option TxAnswer)
  /-- in Refill, begun at t0 with wait bound w -/
  | refilling (pt : ReadPoint) (t0 w : Int) (answer : Option RxAnswer)
deriving DecidableEq, Repr

/-! ## The turns of the agents -/

/-- The width of a host access (20_memory.md rule R63). -/
inductive Width where
  | w8
  | w16
  | w32
deriving DecidableEq, Repr

/-- One access of the host to the block's address space (20_memory.md section 1). A narrow write takes the low bits. -/
inductive HostAccess where
  | read (addr : Word) (width : Width)
  | write (addr : Word) (width : Width) (value : Word)
deriving DecidableEq, Repr

/-- The environment events that end a wait (42_rx_path.md rule R204). -/
inductive Event where
  | opened
  | openFailed
  | txDone
  /-- the peer has received the first `received` bytes of the write -/
  | txFail (received : Nat)
  /-- the next `size` bytes of RXSTREAM -/
  | chunk (size : Nat)
  | expire
  | rxError
  | endOfStream
deriving DecidableEq, Repr

/-- One turn of one agent of 00_scope.md rule R3 (log entry 1). -/
inductive Turn where
  /-- the block takes its next step -/
  | block
  /-- the host makes one access -/
  | host (access : HostAccess)
  /-- the time source advances `now` -/
  | tick (ticks : Nat)
  /-- the peer appends bytes to RXSTREAM (10_state.md rule R36) -/
  | peerSend (bytes : Bytes)
  /-- the peer closes its side (42_rx_path.md rule R195, EndOfStream) -/
  | peerClose
  /-- the transport ends the pending wait -/
  | event (e : Event)
deriving DecidableEq, Repr

/-! ## The state -/

/-- All of the machine's state. The comment on each field names the rule that gives it. -/
structure State where
  /-- the implementation parameters, fixed for life; PARAM registers show them (rules R4, R33) -/
  params : Params
  /-- CFG_HOST (rule R28) -/
  cfgHost : Bytes
  /-- CFG_PORT (rule R28) -/
  cfgPort : BitVec 16
  /-- CFG_TIMEOUT in ticks (rule R28) -/
  cfgTimeout : Word
  /-- PHASE (rule R21); STATUS.BUSY = 1 exactly when it is not idle -/
  phase : Phase
  /-- CURCMD (rule R27) -/
  curCmd : Word
  /-- LINK (rule R22); STATUS.LINK -/
  link : Bool
  /-- ACK_MODE (rule R23); STATUS.ACK_MODE -/
  ackMode : Bool
  /-- RXBUF, front first (rule R24) -/
  rxBuf : Bytes
  /-- T_ARM (rule R25) -/
  tArm : Int
  /-- ARMED (rule R25) -/
  armed : Bool
  /-- ACC (rule R26) -/
  acc : Bytes
  /-- STATUS.DONE (rule R30) -/
  done : Bool
  /-- STATUS.ERR (rule R30) -/
  err : Bool
  /-- STATUS.ERRCODE (rule R30) -/
  errCode : Byte
  /-- ARG (rule R31) -/
  arg : Word
  /-- RESULT (rule R32) -/
  result : Word
  /-- IN_LEN (rule R33) -/
  inLen : Word
  /-- OUT_LEN (rule R33) -/
  outLen : Word
  /-- the written bytes of the IN and OUT windows by host address (rules R34, R35, R60), addresses strictly rising -/
  mem : List Host.Cell
  /-- the time source's current time (rule R190) -/
  now : Int
  /-- the transport is open (rules R36, R200, R311) -/
  transportOpen : Bool
  /-- the peer has closed its side (rule R195, EndOfStream) -/
  peerClosed : Bool
  /-- RXSTREAM (rule R36) -/
  rxStream : Bytes
  /-- TXLOG, oldest write first (rule R36) -/
  txLog : List Bytes
  /-- every byte the peer has received on this connection, parts of failed writes included (rule R198) -/
  peerGot : Bytes
  /-- MODEL'S OWN: how many free values have been drawn (log entry 5) -/
  draws : Nat
  /-- MODEL'S OWN: the draw that unwritten IN bytes read as (log entry 5) -/
  inEpoch : Nat
  /-- MODEL'S OWN: the draw that unwritten OUT bytes read as (log entries 5, 6) -/
  outEpoch : Nat
  /-- MODEL'S OWN, what the host knows: it has read DONE = 1, and no command has been issued since (rule R69, log entry 8) -/
  outputsSettled : Bool
  /-- MODEL'S OWN: the value the host's last read returned (log entry 15) -/
  busData : Option Word
  /-- MODEL'S OWN: the agents' coming turns, the next first (log entry 1) -/
  agenda : List Turn
deriving DecidableEq, Repr

/-- An instance right after construction: every element at the value of 70_reset_and_hazards.md rule R311. That rule leaves
T_ARM and IN and OUT unspecified: T_ARM is 0 here (DESIGN CHOICE, log entry 4), the buffers' bytes are the free values of
draws 0 and 1 (log entry 5). `now` starts at 0 and the peer's side open, `peerClosed` false, of which the rule says nothing
(DESIGN CHOICE, log entry 4). -/
def State.initial (params : Params) (host : Bytes) (port : BitVec 16) (timeout : Word) : State :=
  { params := params
    cfgHost := host
    cfgPort := port
    cfgTimeout := timeout
    phase := .idle
    curCmd := 0
    link := false
    ackMode := true
    rxBuf := []
    tArm := 0
    armed := false
    acc := []
    done := false
    err := false
    errCode := 0
    arg := 0
    result := 0
    inLen := 0
    outLen := 0
    mem := []
    now := 0
    transportOpen := false
    peerClosed := false
    rxStream := []
    txLog := []
    peerGot := []
    draws := 2
    inEpoch := 0
    outEpoch := 1
    outputsSettled := false
    busData := none
    agenda := [] }

/-- The machine right after reset: the instance of 95_test_vectors.md's parameters, just constructed (log entry 3). -/
def State.reset : State :=
  State.initial Config.resetParams Config.resetHost Config.resetPort Config.resetTimeout

end Sys2Proof.Machine
end

