-- ==== Sys2Proof/Machine/Flags.lean ====
section
/-! DEFINITION. The status fields and result words the block computes: the numbers of the error codes, STATUS, PARAM_POLICY
and SPLIT_PACKET's RESULT. The block has no arithmetic condition codes (10_state.md rule R23). -/
namespace Sys2Proof.Machine

/-- ERRCODE of each cause: kind in [7:4], detail in [3:0] (60_exceptions.md rules R280, R281). -/
def Err.code : Err → Byte
  | .escMissing => 0x11
  | .rleMissingCount => 0x12
  | .rleCountFraming => 0x13
  | .rleCountRange => 0x14
  | .pktTooShort => 0x15
  | .pktBadStart => 0x16
  | .pktBadDelim => 0x17
  | .pktPayloadFraming => 0x18
  | .pktCkSyntax => 0x19
  | .pktCkMismatch => 0x1A
  | .nack => 0x21
  | .unexpectedAckByte => 0x22
  | .unexpectedSop => 0x23
  | .oversized => 0x24
  | .deadlineExpired => 0x31
  | .waitExpired => 0x32
  | .alreadyConnected => 0x41
  | .notConnected => 0x42
  | .badCustomChecksum => 0x43
  | .unknownCommand => 0x44
  | .splitTooShort => 0x45
  | .badPort => 0x46
  | .badTimeout => 0x47
  | .connectFailed => 0x51
  | .ioError => 0x52
  | .endOfStream => 0x53
  | .aborted => 0x54
  | .inLenRange => 0x61
  | .outOverflow => 0x62

/-- The code that names a failed construction (60_exceptions.md rule R281; 70_reset_and_hazards.md rule R310). -/
def constructionErr : Fault → Err
  | .badPort => .badPort
  | .badTimeout => .badTimeout

/-- STATUS.BUSY: a command is in progress (10_state.md rules R21, R30). -/
def State.busy (s : State) : Bool := s.phase != .idle

/-- STATUS, from bit 31 down: reserved, ERRCODE, reserved, ACK_MODE, LINK, ERR, DONE, BUSY (10_state.md rule R30). -/
def State.statusWord (s : State) : Word :=
  0#16 ++ s.errCode ++ 0#3 ++ BitVec.ofBool s.ackMode ++ BitVec.ofBool s.link ++ BitVec.ofBool s.err
    ++ BitVec.ofBool s.done ++ BitVec.ofBool s.busy

/-- HEX_CASE_POLICY as PARAM_POLICY[1:0] shows it (10_state.md rule R33). -/
def hexCaseField : HexCasePolicy → BitVec 2
  | .lowerOnly => 0
  | .anyCaseText => 1
  | .anyCaseNumeric => 2

/-- EOF_POLICY as PARAM_POLICY[8] shows it (10_state.md rule R33). -/
def eofField : EofPolicy → BitVec 1
  | .timeoutAtDeadline => 0
  | .transportError => 1

/-- PARAM_POLICY: EOF_POLICY in [8], HEX_CASE_POLICY in [1:0], the other bits 0 (10_state.md rule R33). -/
def policyWord (p : Params) : Word :=
  0#23 ++ eofField p.eof ++ 0#6 ++ hexCaseField p.hexCase

/-- RESULT of SPLIT_PACKET: second and first checksum byte, hash byte, first byte, from the top (30_encoding.md rule
R83). -/
def splitResult (first hash ck0 ck1 : Byte) : Word := ck1 ++ ck0 ++ hash ++ first

/-- A byte reported in RESULT[7:0], the other bits 0 (30_encoding.md rule R83). -/
def byteResult (b : Byte) : Word := b.setWidth 32

end Sys2Proof.Machine
end

