-- ==== Sys2Proof/Machine/Ops.lean ====
section
/-! DEFINITION. The named operations over memory, registers and the deadline that every command shares: the buffers' bytes,
issue (40_command_cycle.md rule R120), successful completion (rules R123, R124), and failed completion (rule R125), which is
what this hardware has for taking an exception (60_exceptions.md rule R285). There is no return from one: the record stays
until the next issue (rule R287). -/
namespace Sys2Proof.Machine

/-! ## Memory: the bytes of the IN and OUT windows -/

/-- Host address of IN[0] (20_memory.md rule R60). -/
def inBase : Nat := 0x01000000

/-- Host address of OUT[0] (20_memory.md rule R60). -/
def outBase : Nat := 0x02000000

namespace Memory

/-- The byte listed at an address. -/
def load : List Host.Cell → Nat → Option Byte
  | [], _ => none
  | (k, b) :: m, a => if k = a then some b else load m a

/-- Write one byte, keeping the addresses strictly rising. -/
def store : List Host.Cell → Nat → Byte → List Host.Cell
  | [], a, b => [(a, b)]
  | (k, c) :: m, a, b =>
    if a < k then (a, b) :: (k, c) :: m else if a = k then (a, b) :: m else (k, c) :: store m a b

/-- Write a sequence of bytes at rising addresses. -/
def storeAll : List Host.Cell → Nat → Bytes → List Host.Cell
  | m, _, [] => m
  | m, a, b :: bs => storeAll (store m a b) (a + 1) bs

/-- Forget every byte at or above an address. -/
def clearFrom (m : List Host.Cell) (a : Nat) : List Host.Cell := m.filter (fun c => decide (c.1 < a))

/-- The canonical form: addresses strictly rising. An unlisted byte reads as a free value, which no listed byte can be
compared with, so there is no entry to leave out (log entry 5). -/
def wf : List Host.Cell → Bool
  | [] => true
  | [_] => true
  | (a, _) :: (b, c) :: m => decide (a < b) && wf ((b, c) :: m)

end Memory

/-- What an unlisted address reads as: the free value of its window's last draw (10_state.md rules R34, R35;
40_command_cycle.md rule R125; log entries 5, 6). -/
def State.unlisted (s : State) (a : Nat) : Byte :=
  Config.freeByte (if a < outBase then s.inEpoch else s.outEpoch) a

/-- The byte at a host address of a window (20_memory.md rule R61). -/
def State.byteAt (s : State) (a : Nat) : Byte := (Memory.load s.mem a).getD (s.unlisted a)

/-- `n` bytes from a host address up. -/
def State.bytesAt (s : State) (a : Nat) : Nat → Bytes
  | 0 => []
  | n + 1 => s.byteAt a :: s.bytesAt (a + 1) n

/-- OUT[0:OUT_LEN), the result bytes of the last command (10_state.md rule R33). -/
def State.outBytes (s : State) : Bytes := s.bytesAt outBase s.outLen.toNat

/-! ## Issue and completion -/

/-- Issue (40_command_cycle.md rule R120): a CMD write with BUSY = 0. The host no longer knows the outputs (20_memory.md
rule R69). -/
def issue (w : Word) (s : State) : State :=
  { s with curCmd := w, phase := .dispatch, done := false, err := false, errCode := 0, result := 0, outLen := 0,
           outputsSettled := false }

/-- `Fail(code, result)` (40_command_cycle.md rule R125; 60_exceptions.md rule R285): the error entry every command shares.
The OUT bytes become a new free draw. -/
def fail (e : Err) (result : Word) (s : State) : State :=
  { s with outLen := 0, mem := Memory.clearFrom s.mem outBase, outEpoch := s.draws, draws := s.draws + 1,
           result := result, armed := false, errCode := e.code, err := true, done := true, phase := .idle }

/-- `Complete(out, result)` when `out` fits in OUT (40_command_cycle.md rule R123). -/
def finish (out : Bytes) (result : Word) (s : State) : State :=
  { s with mem := Memory.storeAll s.mem outBase out, outLen := BitVec.ofNat 32 out.length, result := result,
           armed := false, err := false, errCode := 0, done := true, phase := .idle }

/-- `Complete(out, result)` (40_command_cycle.md rules R123, R124). -/
def complete (out : Bytes) (result : Word) (s : State) : State :=
  if s.params.outCap < out.length then fail .outOverflow 0 s else finish out result s

/-! ## The deadline (42_rx_path.md rules R192, R193, R199) -/

/-- `Arm()` (rule R199). -/
def arm (s : State) : State := { s with tArm := s.now, armed := true }

/-- `Remaining()` on integers (rule R192). -/
def remaining (s : State) : Int := (s.cfgTimeout.toNat : Int) - (s.now - s.tArm)

/-- `WaitBound()`: none when the deadline has passed (rule R193). -/
def waitBound (s : State) : Option Int :=
  let r := remaining s
  if r ≤ 0 then none else if r < (s.params.ticksPerUnit : Int) then some (s.params.ticksPerUnit : Int) else some r

/-! ## Free draws -/

/-- RXBUF becomes any byte sequence of length at most RX_CHUNK_MAX (44_packet_exchange.md rule R252; log entry 7). -/
def drawRxBuf (s : State) : State :=
  { s with rxBuf := (Config.freeBytes s.draws).take s.params.rxChunkMax, draws := s.draws + 1 }

/-! ## The transport -/

/-- `CloseTransport()`: at once, every error dropped; what was left in RXSTREAM is gone (42_rx_path.md rule R200;
43_link_control.md rule R221). TXLOG stays until the next open. -/
def closeTransport (s : State) : State :=
  { s with transportOpen := false, peerClosed := false, rxStream := [] }

/-- `TxWrite(packet)` up to its wait (42_rx_path.md rule R198). -/
def beginTx (packet : Bytes) (pt : TxPoint) (s : State) : State := { s with phase := .sending packet pt none }

/-- `TxWrite` after its wait: go on with `k`, fail with 0x52, or wait on (42_rx_path.md rule R198). -/
def afterTx (k : State → State) (answer : Option TxAnswer) (s : State) : State :=
  match answer with
  | none => s
  | some .done => k s
  | some .failed => fail .ioError 0 s

/-- The check every send and receive makes first: `if LINK = 0: Fail(0x42, 0)` (43_link_control.md rule R224). -/
def requireLink (k : State → State) (s : State) : State :=
  if s.link then k s else fail .notConnected 0 s

end Sys2Proof.Machine
end

