-- ==== Sys2Proof/Machine/Operands.lean ====
section
/-! DEFINITION. The operand forms of the commands (30_encoding.md rule R82): the byte sequence in IN, the custom checksum in
ARG, and the IN_LEN check. -/
namespace Sys2Proof.Machine

/-- IN[0:IN_LEN) (30_encoding.md rule R82; 20_memory.md rule R64). -/
def inBytes (s : State) : Bytes := s.bytesAt inBase s.inLen.toNat

/-- CK0 = ARG[7:0] (10_state.md rule R31). -/
def ck0Of (arg : Word) : Byte := arg.extractLsb' 0 8

/-- CK1 = ARG[15:8] (10_state.md rule R31). -/
def ck1Of (arg : Word) : Byte := arg.extractLsb' 8 8

/-- What a write to ARG stores: bits [31:16] are ignored and read as 0 (10_state.md rule R31). -/
def argStored (v : Word) : Word := 0#16 ++ v.extractLsb' 0 16

/-- The custom checksum [ARG.CK0, ARG.CK1] when CUSTOM_CK = 1 (41_codec.md rule R153; 44_packet_exchange.md rule R240). -/
def customChecksum (customCk : Bool) (s : State) : Option Bytes :=
  if customCk then some [ck0Of s.arg, ck1Of s.arg] else none

/-- The check a command that reads IN makes first: `if IN_LEN > IN_CAP: Fail(0x61, 0)` (40_command_cycle.md rule R122). -/
def requireInLen (k : State → State) (s : State) : State :=
  if s.params.inCap < s.inLen.toNat then fail .inLenRange 0 s else k s

end Sys2Proof.Machine
end

