-- ==== Sys2Proof/Machine/Wire.lean ====
section
/-! DEFINITION. The wire's byte constants, hex digits and the packet codec's pure functions (30_encoding.md rules R81 to R91
and R96; 41_codec.md rules R140 to R147). -/
namespace Sys2Proof.Machine

/-! ## Byte constants (30_encoding.md rule R81) -/

/-- `}`, the escape marker. -/
def ESC : Byte := 0x7D
/-- `$`, start of packet. -/
def SOP : Byte := 0x24
/-- `#`, end of the encoded payload. -/
def EOP : Byte := 0x23
/-- `*`, the run-length marker. -/
def RLE : Byte := 0x2A
/-- `+`. -/
def ACK : Byte := 0x2B
/-- `-`. -/
def NACK : Byte := 0x2D
/-- The interrupt byte. -/
def INTR : Byte := 0x03
/-- The escape XOR mask (00_scope.md rule R4). -/
def escapeMask : Byte := 0x20
/-- The run-length count offset: count = code − 28 (30_encoding.md rule R87). -/
def countOffset : Nat := 28

/-- The digits `0123456789abcdef` in order of value (30_encoding.md rule R96). -/
def hexAlphabet : Bytes :=
  [0x30, 0x31, 0x32, 0x33, 0x34, 0x35, 0x36, 0x37, 0x38, 0x39, 0x61, 0x62, 0x63, 0x64, 0x65, 0x66]

/-! ## Encode (41_codec.md rule R140) -/

/-- The escaped set (30_encoding.md rule R86). -/
def mustEscape (b : Byte) : Bool := b == ESC || b == SOP || b == EOP

/-- `Encode(d)` (rule R140). -/
def encodeBytesOf : Bytes → Bytes
  | [] => []
  | b :: d => if mustEscape b then ESC :: (b ^^^ escapeMask) :: encodeBytesOf d else b :: encodeBytesOf d

/-! ## Decode (41_codec.md rule R141) -/

/-- What a count byte stands for: a repetition, or an error (30_encoding.md rule R87; 41_codec.md rule R141). -/
def countOf (c : Byte) : Except Err Nat :=
  if c = EOP ∨ c = SOP then .error .rleCountFraming
  else if c.toNat < 0x20 ∨ 0x7E < c.toNat then .error .rleCountRange
  else .ok (c.toNat - countOffset)

/-- `Decode(e)` (rule R141): the three cases at each position in the order the rule tests them; the first error met is the
answer and the output built so far is dropped. -/
def decodeBytesOf : Bytes → Except Err Bytes
  | [] => .ok []
  | b :: e =>
    if b = ESC then
      match e with
      | [] => .error .escMissing
      | x :: e' => (decodeBytesOf e').map ((x ^^^ escapeMask) :: ·)
    else
      match e with
      | [] => .ok [b]
      | x :: e' =>
        if x = RLE then
          match e' with
          | [] => .error .rleMissingCount
          | c :: e'' =>
            match countOf c with
            | .error k => .error k
            | .ok n => (decodeBytesOf e'').map (List.replicate n b ++ ·)
        else (decodeBytesOf (x :: e')).map (b :: ·)

/-! ## Checksum (41_codec.md rules R143, R144) -/

/-- The sum of the bytes mod 256. -/
def byteSum (e : Bytes) : Nat := (e.map BitVec.toNat).sum % 256

/-- The digit of a value below 16. -/
def hexDigit (v : Nat) : Byte := hexAlphabet.getD v 0

/-- `Checksum(e)`: the digit of bits [7:4], then of bits [3:0] (rule R143; 30_encoding.md rule R89). -/
def checksum (e : Bytes) : Bytes := [hexDigit (byteSum e / 16), hexDigit (byteSum e % 16)]

/-- `b` in `0`..`9`. -/
def isDecimalDigit (b : Byte) : Bool := decide (0x30 ≤ b.toNat) && decide (b.toNat ≤ 0x39)
/-- `b` in `a`..`f`. -/
def isLowerHex (b : Byte) : Bool := decide (0x61 ≤ b.toNat) && decide (b.toNat ≤ 0x66)
/-- `b` in `A`..`F`. -/
def isUpperHex (b : Byte) : Bool := decide (0x41 ≤ b.toNat) && decide (b.toNat ≤ 0x46)

/-- `HexVal(b)` (rule R144); 0 for a byte that is no hex digit, where no rule reads it. -/
def hexVal (b : Byte) : Nat :=
  if isDecimalDigit b then b.toNat - 0x30
  else if isLowerHex b then b.toNat - 0x61 + 10
  else if isUpperHex b then b.toNat - 0x41 + 10 else 0

/-- `DigitOK(b)` (rule R144). -/
def digitOk (policy : HexCasePolicy) (b : Byte) : Bool :=
  isDecimalDigit b || isLowerHex b || (policy != .lowerOnly && isUpperHex b)

/-- `CkSyntaxOK(c)` (rule R144). -/
def ckSyntaxOk (policy : HexCasePolicy) (c : Bytes) : Bool :=
  c.length == 2 && c.all (digitOk policy)

/-- `CkEqual(c, e)` (rule R144). -/
def ckEqual (policy : HexCasePolicy) (c e : Bytes) : Bool :=
  match policy with
  | .anyCaseNumeric => 16 * hexVal (c.getD 0 0) + hexVal (c.getD 1 0) == byteSum e
  | .lowerOnly | .anyCaseText => c == checksum e

/-! ## Frames (41_codec.md rules R145 to R147) -/

/-- `CreatePacket(d, ck)` (rule R145). -/
def createPacketOf (policy : HexCasePolicy) (d : Bytes) : Option Bytes → Except Err Bytes
  | none => .ok (SOP :: encodeBytesOf d ++ EOP :: checksum (encodeBytesOf d))
  | some ck =>
    if ckSyntaxOk policy ck then .ok (SOP :: encodeBytesOf d ++ EOP :: ck) else .error .badCustomChecksum

/-- The four parts of a raw packet (rule R146). -/
structure Parts where
  first : Byte
  payload : Bytes
  hash : Byte
  ck : Bytes
deriving DecidableEq, Repr

/-- `Split(p)` for |p| ≥ 4: positional slicing, nothing checked (rule R146). -/
def splitOf (p : Bytes) : Parts :=
  { first := p.getD 0 0
    payload := (p.drop 1).take (p.length - 4)
    hash := p.getD (p.length - 3) 0
    ck := p.drop (p.length - 2) }

/-- `Validate(p)`: none for OK, else the first check that fails (rule R147). -/
def validateOf (policy : HexCasePolicy) (p : Bytes) : Option Err :=
  let q := splitOf p
  if p.length < 4 then some .pktTooShort
  else if q.first ≠ SOP then some .pktBadStart
  else if q.hash ≠ EOP then some .pktBadDelim
  else if q.payload.any (fun b => b == SOP || b == EOP) then some .pktPayloadFraming
  else if !ckSyntaxOk policy q.ck then some .pktCkSyntax
  else if !ckEqual policy q.ck q.payload then some .pktCkMismatch
  else none

end Sys2Proof.Machine
end

