-- ==== Sys2Proof/Machine/Codec.lean ====
section
/-! DEFINITION. The six codec commands (41_codec.md rules R150 to R155). Each runs in one step with no wait, whatever LINK is
(40_command_cycle.md rules R127, R128). -/
namespace Sys2Proof.Machine

/-- The end of a codec command whose result is bytes or an error. -/
def completeWith (r : Except Err Bytes) (s : State) : State :=
  match r with
  | .error e => fail e 0 s
  | .ok out => complete out 0 s

/-- ENCODE_PAYLOAD (rule R150). -/
def execEncodePayload (s : State) : Host.Outcome State Fault Refusal :=
  .next (requireInLen (fun s => complete (encodeBytesOf (inBytes s)) 0 s) s)

/-- DECODE_PAYLOAD (rule R151). -/
def execDecodePayload (s : State) : Host.Outcome State Fault Refusal :=
  .next (requireInLen (fun s => completeWith (decodeBytesOf (inBytes s)) s) s)

/-- COMPUTE_CHECKSUM (rule R152). -/
def execComputeChecksum (s : State) : Host.Outcome State Fault Refusal :=
  .next (requireInLen (fun s => complete (checksum (inBytes s)) 0 s) s)

/-- CREATE_PACKET (rule R153). -/
def execCreatePacket (customCk : Bool) (s : State) : Host.Outcome State Fault Refusal :=
  .next (requireInLen
    (fun s => completeWith (createPacketOf s.params.hexCase (inBytes s) (customChecksum customCk s)) s) s)

/-- SPLIT_PACKET (rule R154). -/
def execSplitPacket (s : State) : Host.Outcome State Fault Refusal :=
  .next (requireInLen
    (fun s =>
      let p := inBytes s
      let q := splitOf p
      if p.length < 4 then fail .splitTooShort 0 s
      else complete q.payload (splitResult q.first q.hash (q.ck.getD 0 0) (q.ck.getD 1 0)) s) s)

/-- VALIDATE_PACKET (rule R155). -/
def execValidatePacket (s : State) : Host.Outcome State Fault Refusal :=
  .next (requireInLen
    (fun s =>
      match validateOf s.params.hexCase (inBytes s) with
      | some e => fail e 0 s
      | none => complete [] 0 s) s)

end Sys2Proof.Machine
end

