-- ==== Sys2Proof/Machine/LinkControl.lean ====
section
/-! DEFINITION. CONNECT, DISCONNECT, SET_ACK_MODE and the abort that a DISCONNECT word causes (43_link_control.md rules R220
to R223). A command in a phase that is none of its waits runs from its start (log entry 16). -/
namespace Sys2Proof.Machine

/-- CONNECT (rule R220): from its start up to the open's wait, or on from that wait. -/
def execConnect (s : State) : Host.Outcome State Fault Refusal :=
  .next (match s.phase with
    | .opening none => s
    | .opening (some .failed) => fail .connectFailed 0 s
    | .opening (some .opened) => complete [] 0 { s with link := true, ackMode := true, rxBuf := [] }
    | _ => if s.link then fail .alreadyConnected 0 s else { s with phase := .opening none })

/-- DISCONNECT (rule R221): never raises an error, waits for nothing, and is idempotent. -/
def execDisconnect (s : State) : Host.Outcome State Fault Refusal :=
  .next (complete [] 0 { (if s.link then closeTransport s else s) with link := false, rxBuf := [] })

/-- SET_ACK_MODE (rule R223). -/
def execSetAckMode (enable : Bool) (s : State) : Host.Outcome State Fault Refusal :=
  .next (complete [] 0 { s with ackMode := enable })

/-- Abandon the pending wait: of a transmit cut short, the peer has received some prefix (rule R222; log entry 13). -/
def abandonWait (s : State) : State :=
  match s.phase with
  | .sending packet _ none =>
    { s with peerGot := s.peerGot ++ packet.take (Config.freeLength s.draws), draws := s.draws + 1 }
  | _ => s

/-- Abort by DISCONNECT (rule R222): one step, one completion, the aborted command's `Fail(0x54)`. -/
def abort (s : State) : State :=
  let s := abandonWait s
  let s := if s.transportOpen then closeTransport s else s
  fail .aborted 0 { s with link := false, rxBuf := [], acc := [] }

/-- The commands a DISCONNECT word aborts (rule R222). -/
def abortable : Instr → Bool
  | .connect | .sendPacket _ _ | .checkAck | .sendAck | .sendNack | .sendInterrupt | .recvPacket _ | .recvAndDecode => true
  | .encodePayload | .decodePayload | .computeChecksum | .createPacket _ | .splitPacket | .validatePacket | .disconnect
  | .setAckMode _ => false

end Sys2Proof.Machine
end

