-- ==== Sys2Proof/Machine/RxPath.lean ====
section
/-! DEFINITION. The receive side the link commands share: Refill and ReadByte (42_rx_path.md rules R191 to R197), AckWait
(44_packet_exchange.md rule R241) and the frame scan RecvFrame (rules R246, R252). A procedure runs until it completes,
fails, or reaches a `wait` (40_command_cycle.md rule R127); PHASE then says where it goes on. -/
namespace Sys2Proof.Machine

/-! ## Failures of a read -/

/-- A failed frame scan: ACC is dropped, RXBUF becomes a free draw, LINK stays (44_packet_exchange.md rule R252;
60_exceptions.md rule R285). -/
def scanFail (e : Err) (result : Word) (s : State) : State := fail e result (drawRxBuf { s with acc := [] })

/-- A failure inside a ReadByte: of AckWait, where RXBUF stays as it is (44_packet_exchange.md rule R241), or of the frame
scan (rule R252). -/
def readFail (pt : ReadPoint) (e : Err) (s : State) : State :=
  match pt with
  | .ack => fail e 0 s
  | .scan _ => scanFail e 0 s

/-! ## Refill (42_rx_path.md rules R193, R195, R196) -/

/-- Refill up to its wait: the bound first, which may fail with 0x31 (rules R193, R195). -/
def refill (pt : ReadPoint) (s : State) : State :=
  match waitBound s with
  | none => readFail pt .deadlineExpired s
  | some w => { s with phase := .refilling pt s.now w none }

/-- Refill after its wait (rules R195, R196): go on with `k`, fail, or wait on. After an end of stream under
TIMEOUT_AT_DEADLINE each further step reads nothing until the remaining time is used up (log entry 12). -/
def afterRefill (k : State → State) (pt : ReadPoint) (answer : Option RxAnswer) (s : State) : State :=
  match answer with
  | none => s
  | some .data => k s
  | some .expired => readFail pt .waitExpired s
  | some .error => readFail pt .ioError s
  | some .endOfStream =>
    match s.params.eof with
    | .transportError => readFail pt .endOfStream s
    | .timeoutAtDeadline => if remaining s ≤ 0 then readFail pt .deadlineExpired s else s

/-! ## AckWait (44_packet_exchange.md rule R241) -/

/-- AckWait from its ReadByte on: `+` succeeds, `-` is consumed and fails, any other byte is pushed back and fails. -/
def ackByte (s : State) : State :=
  match s.rxBuf with
  | [] => refill .ack s
  | b :: rest =>
    if b = ACK then complete [] 0 { s with rxBuf := rest }
    else if b = NACK then fail .nack (byteResult NACK) { s with rxBuf := rest }
    else fail .unexpectedAckByte (byteResult b) { s with rxBuf := b :: rest }

/-- `AckWait()`, then the command's `Complete([], 0)`. -/
def ackWait (s : State) : State := ackByte (arm s)

/-! ## RecvFrame (44_packet_exchange.md rule R246) -/

/-- What the scan comes to on the bytes at hand. -/
inductive ScanResult where
  /-- a whole frame, and the bytes after it -/
  | frame (p rest : Bytes)
  /-- the bytes are used up: the scan stands at pt with ACC = acc -/
  | more (pt : ScanPoint) (acc : Bytes)
  /-- the first byte is not `$` -/
  | badSop (b : Byte)
  /-- |ACC| reached MAX_PACKET_LEN with no `#` -/
  | oversized
deriving DecidableEq, Repr

/-- The scan loop of rule R246 over the bytes in RXBUF, from a point of it on. The size check comes before each body read,
also when there is no byte to read. -/
def scan (max : Nat) : Bytes → ScanPoint → Bytes → ScanResult
  | [], .body, acc => if max ≤ acc.length then .oversized else .more .body acc
  | [], .sop, acc => .more .sop acc
  | [], .ck0, acc => .more .ck0 acc
  | [], .ck1 c0, acc => .more (.ck1 c0) acc
  | b :: buf, .sop, _ => if b = SOP then scan max buf .body [SOP] else .badSop b
  | b :: buf, .body, acc =>
    if max ≤ acc.length then .oversized else scan max buf (if b = EOP then .ck0 else .body) (acc ++ [b])
  | b :: buf, .ck0, acc => scan max buf (.ck1 b) acc
  | b :: buf, .ck1 c0, acc => .frame (acc ++ [c0, b]) buf

/-- RecvFrame from a point on: hand the frame to `k`, wait for more bytes, or fail. ACC's content becomes the frame and ACC
is empty after (10_state.md rule R26; log entry 11). -/
def scanFrom (k : Bytes → State → State) (pt : ScanPoint) (s : State) : State :=
  match scan s.params.maxPacketLen s.rxBuf pt s.acc with
  | .frame p rest => k p { s with rxBuf := rest, acc := [] }
  | .more pt' acc' => refill (.scan pt') { s with rxBuf := [], acc := acc' }
  | .badSop b => scanFail .unexpectedSop (byteResult b) s
  | .oversized => scanFail .oversized (BitVec.ofNat 32 s.params.maxPacketLen) s

/-- `RecvFrame()`, then `k` with its frame. -/
def recvFrame (k : Bytes → State → State) (s : State) : State := scanFrom k .sop (arm { s with acc := [] })

/-- After RecvFrame with validation: a format error, or the `+` when ACK_MODE = 1, then `k`
(44_packet_exchange.md rules R250, R251). -/
def validateAndAck (k : Bytes → State → State) (p : Bytes) (s : State) : State :=
  match validateOf s.params.hexCase p with
  | some e => fail e 0 s
  | none => if s.ackMode then beginTx [ACK] (.plus p) s else k p s

end Sys2Proof.Machine
end

