-- ==== Sys2Proof/Machine/PacketExchange.lean ====
section
/-! DEFINITION. The commands that move bytes over the link (44_packet_exchange.md rules R240 to R251). Each meaning matches on
PHASE: the waits of its pseudocode, where it goes on, and else its start (log entry 16). -/
namespace Sys2Proof.Machine

/-! ## Send commands -/

/-- SEND_PACKET from its start up to the write's wait: IN_LEN, custom checksum, link, in that order, then one write
(rule R240). -/
def sendPacketStart (customCk : Bool) (s : State) : State :=
  requireInLen (fun s =>
    match createPacketOf s.params.hexCase (inBytes s) (customChecksum customCk s) with
    | .error e => fail e 0 s
    | .ok packet => requireLink (beginTx packet .command) s) s

/-- SEND_PACKET after the write is accepted (rule R240). -/
def sendPacketSent (checkAck : Bool) (s : State) : State :=
  if checkAck && s.ackMode then ackWait s else complete [] 0 s

/-- SEND_PACKET (rule R240). -/
def execSendPacket (customCk checkAck : Bool) (s : State) : Host.Outcome State Fault Refusal :=
  .next (match s.phase with
    | .sending _ .command answer => afterTx (sendPacketSent checkAck) answer s
    | .refilling .ack _ _ answer => afterRefill ackByte .ack answer s
    | _ => sendPacketStart customCk s)

/-- CHECK_ACK (rule R242): reads one byte whatever ACK_MODE is. -/
def execCheckAck (s : State) : Host.Outcome State Fault Refusal :=
  .next (match s.phase with
    | .refilling .ack _ _ answer => afterRefill ackByte .ack answer s
    | _ => requireLink ackWait s)

/-- A command that sends one byte on its own and reads nothing (rules R243 to R245). -/
def sendByte (b : Byte) (s : State) : State :=
  match s.phase with
  | .sending _ .command answer => afterTx (complete [] 0) answer s
  | _ => requireLink (beginTx [b] .command) s

/-- SEND_ACK (rule R243). -/
def execSendAck (s : State) : Host.Outcome State Fault Refusal := .next (sendByte ACK s)

/-- SEND_NACK (rule R244). -/
def execSendNack (s : State) : Host.Outcome State Fault Refusal := .next (sendByte NACK s)

/-- SEND_INTERRUPT (rule R245). -/
def execSendInterrupt (s : State) : Host.Outcome State Fault Refusal := .next (sendByte INTR s)

/-! ## Receive commands -/

/-- RECV_PACKET's end: the raw frame is the result (rule R250). -/
def deliverRaw (p : Bytes) (s : State) : State := complete p 0 s

/-- RECV_AND_DECODE's end: split, decode, and the decoded payload is the result (rule R251). -/
def deliverDecoded (p : Bytes) (s : State) : State :=
  match decodeBytesOf (splitOf p).payload with
  | .error e => fail e 0 s
  | .ok d => complete d 0 s

/-- RECV_PACKET with its frame in hand (rule R250). -/
def recvPacketFrame (validateAck : Bool) (p : Bytes) (s : State) : State :=
  if validateAck then validateAndAck deliverRaw p s else deliverRaw p s

/-- RECV_PACKET (rule R250). -/
def execRecvPacket (validateAck : Bool) (s : State) : Host.Outcome State Fault Refusal :=
  .next (match s.phase with
    | .sending _ (.plus p) answer => afterTx (deliverRaw p) answer s
    | .refilling (.scan pt) _ _ answer => afterRefill (scanFrom (recvPacketFrame validateAck) pt) (.scan pt) answer s
    | _ => requireLink (recvFrame (recvPacketFrame validateAck)) s)

/-- RECV_AND_DECODE (rule R251): the `+` goes out before the payload is decoded (70_reset_and_hazards.md rule R322). -/
def execRecvAndDecode (s : State) : Host.Outcome State Fault Refusal :=
  .next (match s.phase with
    | .sending _ (.plus p) answer => afterTx (deliverDecoded p) answer s
    | .refilling (.scan pt) _ _ answer => afterRefill (scanFrom (validateAndAck deliverDecoded) pt) (.scan pt) answer s
    | _ => requireLink (recvFrame (validateAndAck deliverDecoded)) s)

end Sys2Proof.Machine
end

