-- ==== Sys2Proof/Machine/Dispatch.lean ====
section
/-! DEFINITION. exec: one arm per command of 30_encoding.md rule R84. -/
namespace Sys2Proof.Machine

def exec (i : Instr) (s : State) : Host.Outcome State Fault Refusal :=
  match i with
  | .encodePayload => Sys2Proof.Machine.execEncodePayload s
  | .decodePayload => Sys2Proof.Machine.execDecodePayload s
  | .computeChecksum => Sys2Proof.Machine.execComputeChecksum s
  | .createPacket customCk => Sys2Proof.Machine.execCreatePacket customCk s
  | .splitPacket => Sys2Proof.Machine.execSplitPacket s
  | .validatePacket => Sys2Proof.Machine.execValidatePacket s
  | .connect => Sys2Proof.Machine.execConnect s
  | .disconnect => Sys2Proof.Machine.execDisconnect s
  | .setAckMode enable => Sys2Proof.Machine.execSetAckMode enable s
  | .sendPacket customCk checkAck => Sys2Proof.Machine.execSendPacket customCk checkAck s
  | .checkAck => Sys2Proof.Machine.execCheckAck s
  | .sendAck => Sys2Proof.Machine.execSendAck s
  | .sendNack => Sys2Proof.Machine.execSendNack s
  | .sendInterrupt => Sys2Proof.Machine.execSendInterrupt s
  | .recvPacket validateAck => Sys2Proof.Machine.execRecvPacket validateAck s
  | .recvAndDecode => Sys2Proof.Machine.execRecvAndDecode s

end Sys2Proof.Machine
end

