-- ==== Sys2Proof/Machine/Environment.lean ====
section
/-! DEFINITION. The transport, the peer and the time source (10_state.md rule R36; 42_rx_path.md rules R190, R195, R198, R200,
R204). What the rules do not enable at a state is refused: it is no behaviour of the environment (log entry 9). -/
namespace Sys2Proof.Machine

/-- Opened: the new connection starts with empty sequences (rules R36, R200). -/
def openTransport (s : State) : State :=
  { s with transportOpen := true, peerClosed := false, rxStream := [], txLog := [], peerGot := [] }

/-- A chunk of `size` bytes may arrive now in a refill begun at t0 with bound w (rule R195). -/
def chunkEnabled (s : State) (t0 w : Int) (size : Nat) : Bool :=
  decide (1 ≤ size) && decide (size ≤ s.params.rxChunkMax) && decide (size ≤ s.rxStream.length)
    && decide (t0 ≤ s.now) && decide (s.now ≤ t0 + w)

/-- Chunk: the next `size` bytes of RXSTREAM go to the end of RXBUF (rules R191, R195). -/
def deliverChunk (size : Nat) (s : State) : State :=
  { s with rxBuf := s.rxBuf ++ s.rxStream.take size, rxStream := s.rxStream.drop size }

/-- An environment event that ends the pending wait (rule R204). -/
def takeEvent (e : Event) (s : State) : Host.Outcome State Fault Refusal :=
  match s.phase, e with
  | .opening none, .opened => .next { openTransport s with phase := .opening (some .opened) }
  | .opening none, .openFailed => .next { s with phase := .opening (some .failed) }
  | .sending packet pt none, .txDone =>
    .next { s with phase := .sending packet pt (some .done), txLog := s.txLog ++ [packet], peerGot := s.peerGot ++ packet }
  | .sending packet pt none, .txFail received =>
    if received ≤ packet.length then
      .next { s with phase := .sending packet pt (some .failed), peerGot := s.peerGot ++ packet.take received }
    else .refused .eventNotEnabled
  | .refilling pt t0 w none, .chunk size =>
    if chunkEnabled s t0 w size then .next { deliverChunk size s with phase := .refilling pt t0 w (some .data) }
    else .refused .eventNotEnabled
  | .refilling pt t0 w none, .expire =>
    if t0 + w ≤ s.now then .next { s with phase := .refilling pt t0 w (some .expired) } else .refused .eventNotEnabled
  | .refilling pt t0 w none, .rxError => .next { s with phase := .refilling pt t0 w (some .error) }
  | .refilling pt t0 w none, .endOfStream =>
    if s.peerClosed && s.rxStream.isEmpty then .next { s with phase := .refilling pt t0 w (some .endOfStream) }
    else .refused .eventNotEnabled
  | _, _ => .refused .eventNotEnabled

/-- The peer appends to RXSTREAM, at any time while the transport is open, a close of its side or not (rule R36; log entries
17, 21). -/
def peerSend (bytes : Bytes) (s : State) : Host.Outcome State Fault Refusal :=
  if s.transportOpen then .next { s with rxStream := s.rxStream ++ bytes } else .refused .eventNotEnabled

/-- The peer closes its side of an open transport (rule R195, EndOfStream; log entry 21). -/
def peerClose (s : State) : Host.Outcome State Fault Refusal :=
  if s.transportOpen then .next { s with peerClosed := true } else .refused .eventNotEnabled

/-- The time source advances; `now` never decreases (rule R190). -/
def tick (ticks : Nat) (s : State) : State := { s with now := s.now + (ticks : Int) }

end Sys2Proof.Machine
end

