-- ==== Sys2Proof/Decode.lean ====
section
/-! DEFINITION. The command word (30_encoding.md rules R80, R84, R92, R94): its byte order on the host side (20_memory.md
rule R65), the decoder, total on every word and every byte list and rejecting by name, and the encoder. -/
namespace Sys2Proof

/-! ## Byte order (20_memory.md rule R65: little-endian, not switchable) -/

/-- The number that bytes spell, the least significant first. -/
def leNat : Bytes → Nat
  | [] => 0
  | b :: bs => b.toNat + 256 * leNat bs

/-- The low n bytes of a word, the least significant first. -/
def leBytes : Nat → Nat → Bytes
  | 0, _ => []
  | n + 1, v => BitVec.ofNat 8 v :: leBytes n (v / 256)

/-! ## Fields of the command word (30_encoding.md rule R80) -/

/-- OPC, bits [7:0]. -/
def Word.opc (w : Word) : Byte := w.extractLsb' 0 8

/-- F0, bit [8]. -/
def Word.f0 (w : Word) : Bool := w.getLsbD 8

/-- F1, bit [9]. -/
def Word.f1 (w : Word) : Bool := w.getLsbD 9

/-- The reserved bits [31:10]. -/
def Word.reserved (w : Word) : BitVec 22 := w.extractLsb' 10 22

/-! ## The decoder -/

/-- Why a command word is reserved (30_encoding.md rule R92), or a byte list holds no command word. -/
inductive DecodeError where
  /-- some bit of [31:10] is set -/
  | reservedBits
  /-- OPC is not an opcode of rule R84 -/
  | reservedOpcode
  /-- F0 or F1 is set where rule R84 gives 0 -/
  | reservedFlag
  /-- fewer than four bytes -/
  | truncated
deriving DecidableEq, Repr

/-- A row of rule R84 with F0 = 0 and F1 = 0. -/
def noFlags (i : Instr) (f0 f1 : Bool) : Except DecodeError Instr :=
  if f0 || f1 then .error .reservedFlag else .ok i

/-- A row of rule R84 whose F0 has a meaning and whose F1 is 0. -/
def onlyF0 (i : Bool → Instr) (f0 f1 : Bool) : Except DecodeError Instr :=
  if f1 then .error .reservedFlag else .ok (i f0)

/-- The rows of rule R84 by opcode. -/
def decodeOpcode (opc : Byte) (f0 f1 : Bool) : Except DecodeError Instr :=
  match opc with
  | 0x01 => noFlags .encodePayload f0 f1
  | 0x02 => noFlags .decodePayload f0 f1
  | 0x03 => noFlags .computeChecksum f0 f1
  | 0x04 => onlyF0 .createPacket f0 f1
  | 0x05 => noFlags .splitPacket f0 f1
  | 0x06 => noFlags .validatePacket f0 f1
  | 0x10 => noFlags .connect f0 f1
  | 0x11 => noFlags .disconnect f0 f1
  | 0x12 => onlyF0 .setAckMode f0 f1
  | 0x20 => .ok (.sendPacket f0 f1)
  | 0x21 => noFlags .checkAck f0 f1
  | 0x22 => noFlags .sendAck f0 f1
  | 0x23 => noFlags .sendNack f0 f1
  | 0x24 => noFlags .sendInterrupt f0 f1
  | 0x30 => onlyF0 .recvPacket f0 f1
  | 0x31 => noFlags .recvAndDecode f0 f1
  | _ => .error .reservedOpcode

/-- The command a word stands for, or why it is reserved (30_encoding.md rules R84, R92). -/
def decodeWord (w : Word) : Except DecodeError Instr :=
  if w.reserved = 0 then decodeOpcode w.opc w.f0 w.f1 else .error .reservedBits

/-- The command in the first four bytes, little-endian, and the bytes after it. -/
def decodeBytes : Bytes → Except DecodeError (Instr × Bytes)
  | b0 :: b1 :: b2 :: b3 :: rest => (decodeWord (BitVec.ofNat 32 (leNat [b0, b1, b2, b3]))).map (·, rest)
  | _ => .error .truncated

/-! ## The encoder -/

/-- The opcode of rule R84. -/
def Instr.opcode : Instr → Byte
  | .encodePayload => 0x01
  | .decodePayload => 0x02
  | .computeChecksum => 0x03
  | .createPacket _ => 0x04
  | .splitPacket => 0x05
  | .validatePacket => 0x06
  | .connect => 0x10
  | .disconnect => 0x11
  | .setAckMode _ => 0x12
  | .sendPacket _ _ => 0x20
  | .checkAck => 0x21
  | .sendAck => 0x22
  | .sendNack => 0x23
  | .sendInterrupt => 0x24
  | .recvPacket _ => 0x30
  | .recvAndDecode => 0x31

/-- F0 as rule R84 gives it. -/
def Instr.flag0 : Instr → Bool
  | .createPacket customCk => customCk
  | .setAckMode enable => enable
  | .sendPacket customCk _ => customCk
  | .recvPacket validateAndAck => validateAndAck
  | .encodePayload | .decodePayload | .computeChecksum | .splitPacket | .validatePacket | .connect | .disconnect
  | .checkAck | .sendAck | .sendNack | .sendInterrupt | .recvAndDecode => false

/-- F1 as rule R84 gives it. -/
def Instr.flag1 : Instr → Bool
  | .sendPacket _ wantAck => wantAck
  | .encodePayload | .decodePayload | .computeChecksum | .createPacket _ | .splitPacket | .validatePacket | .connect
  | .disconnect | .setAckMode _ | .checkAck | .sendAck | .sendNack | .sendInterrupt | .recvPacket _
  | .recvAndDecode => false

/-- The command word of an instruction: reserved bits, F1, F0, OPC (30_encoding.md rule R80). -/
def encode (i : Instr) : Word :=
  0#22 ++ BitVec.ofBool i.flag1 ++ BitVec.ofBool i.flag0 ++ i.opcode

/-- The command word as the host stores it: four bytes, little-endian (20_memory.md rule R65). -/
def encodeBytes (i : Instr) : Bytes := leBytes 4 (encode i).toNat

/-- The instruction the decoder reads from an opcode-table word: its bits laid out as bytes, little-endian, the bits above
nbits zero, and given to decodeBytes. A number that does not fit the 32-bit CMD register is no command word. -/
def decodeTableWord (nbits w : Nat) : Option Instr :=
  let v := w % 2 ^ nbits
  if v < 2 ^ 32 then (decodeBytes (leBytes 4 v)).toOption.map (·.1) else none

end Sys2Proof
end

