-- ==== Sys2Proof/Machine/HostPort.lean ====
section
/-! DEFINITION. The host's accesses to the block's address space (20_memory.md rules R60 to R63, R65, R67, R69): the register
map, the two windows, what is refused, and the CMD write that issues a command or aborts one. -/
namespace Sys2Proof.Machine

/-! ## The register map (20_memory.md rule R60) -/

/-- The host interface registers (10_state.md rules R28 to R33). -/
inductive Reg where
  | cmd
  | status
  | arg
  | result
  | inLen
  | outLen
  | cfgTimeout
  | cfgPort
  | paramMaxPacketLen
  | paramInCap
  | paramOutCap
  | paramRxChunkMax
  | paramTicksPerUnit
  | paramPolicy
deriving DecidableEq, Repr

/-- The register at an offset. -/
def regAt : Nat → Option Reg
  | 0x000 => some .cmd
  | 0x004 => some .status
  | 0x008 => some .arg
  | 0x00C => some .result
  | 0x010 => some .inLen
  | 0x014 => some .outLen
  | 0x018 => some .cfgTimeout
  | 0x01C => some .cfgPort
  | 0x020 => some .paramMaxPacketLen
  | 0x024 => some .paramInCap
  | 0x028 => some .paramOutCap
  | 0x02C => some .paramRxChunkMax
  | 0x030 => some .paramTicksPerUnit
  | 0x034 => some .paramPolicy
  | _ => none

/-- Bytes an access moves. -/
def widthBytes : Width → Nat
  | .w8 => 1
  | .w16 => 2
  | .w32 => 4

/-- Every byte of an access at address a lies in a window of `cap` bytes (log entry 23). -/
def inWindow (base cap a n : Nat) : Bool := decide (base ≤ a) && decide (a + n ≤ base + cap)

/-! ## Reads -/

/-- The host has read a value (log entry 15). -/
def observe (v : Word) (s : State) : State := { s with busData := some v }

/-- A read of RESULT, OUT_LEN or OUT: any value while BUSY = 1 and until the host has read DONE = 1 (20_memory.md rules
R63, R69; log entry 8). The free value is as wide as the access. -/
def observeOutput (n : Nat) (v : Word) (s : State) : State :=
  if s.outputsSettled && !s.busy then observe v s
  else { s with busData := some (BitVec.ofNat 32 ((Config.freeWord s.draws).toNat % 2 ^ (8 * n))), draws := s.draws + 1 }

/-- The value at a window address, n bytes, little-endian (20_memory.md rules R63, R65). -/
def windowValue (s : State) (a n : Nat) : Word := BitVec.ofNat 32 (leNat (s.bytesAt a n))

/-- A read of STATUS; if it shows DONE = 1, the host knows the outputs from here on (20_memory.md rule R69). -/
def readStatus (s : State) : State :=
  { observe s.statusWord s with outputsSettled := s.outputsSettled || s.done }

/-- A 32-bit read of a register (10_state.md section 5; a read of CMD is refused, rule R62 b). -/
def readReg (r : Reg) (s : State) : Host.Outcome State Fault Refusal :=
  match r with
  | .cmd => .refused .readOfCmd
  | .status => .next (readStatus s)
  | .arg => .next (observe s.arg s)
  | .result => .next (observeOutput 4 s.result s)
  | .inLen => .next (observe s.inLen s)
  | .outLen => .next (observeOutput 4 s.outLen s)
  | .cfgTimeout => .next (observe s.cfgTimeout s)
  | .cfgPort => .next (observe (s.cfgPort.setWidth 32) s)
  | .paramMaxPacketLen => .next (observe (BitVec.ofNat 32 s.params.maxPacketLen) s)
  | .paramInCap => .next (observe (BitVec.ofNat 32 s.params.inCap) s)
  | .paramOutCap => .next (observe (BitVec.ofNat 32 s.params.outCap) s)
  | .paramRxChunkMax => .next (observe (BitVec.ofNat 32 s.params.rxChunkMax) s)
  | .paramTicksPerUnit => .next (observe (BitVec.ofNat 32 s.params.ticksPerUnit) s)
  | .paramPolicy => .next (observe (policyWord s.params) s)

/-- A host read (rules R61, R62, R63). When several grounds for a refusal apply, the first tested here names it (log entry
19). -/
def hostRead (addr : Word) (width : Width) (s : State) : Host.Outcome State Fault Refusal :=
  let a := addr.toNat
  let n := widthBytes width
  if a % n ≠ 0 then .refused .misaligned
  else match regAt a with
    | some r => if width = .w32 then readReg r s else .refused .registerWidth
    | none =>
      if inWindow inBase s.params.inCap a n then .next (observe (windowValue s a n) s)
      else if inWindow outBase s.params.outCap a n then .next (observeOutput n (windowValue s a n) s)
      else .refused .unmappedOffset

/-! ## Writes -/

/-- A write to CMD: issue when idle; while a command that waits on the link is in progress, the DISCONNECT word aborts it;
else refused (40_command_cycle.md rules R120, R126; 43_link_control.md rule R222). -/
def writeCmd (v : Word) (s : State) : Host.Outcome State Fault Refusal :=
  if !s.busy then .next (issue v s)
  else if v = encode .disconnect && (decodeWord s.curCmd).toOption.any abortable then .next (abort s)
  else .refused .busyWrite

/-- A 32-bit write of a register (10_state.md section 5). -/
def writeReg (r : Reg) (v : Word) (s : State) : Host.Outcome State Fault Refusal :=
  match r with
  | .cmd => writeCmd v s
  | .arg => if s.busy then .refused .busyWrite else .next { s with arg := argStored v }
  | .inLen => if s.busy then .refused .busyWrite else .next { s with inLen := v }
  | .status | .result | .outLen | .cfgTimeout | .cfgPort | .paramMaxPacketLen | .paramInCap | .paramOutCap
  | .paramRxChunkMax | .paramTicksPerUnit | .paramPolicy => .refused .writeToReadOnly

/-- A host write (rules R61, R62, R63, R67). -/
def hostWrite (addr : Word) (width : Width) (v : Word) (s : State) : Host.Outcome State Fault Refusal :=
  let a := addr.toNat
  let n := widthBytes width
  if a % n ≠ 0 then .refused .misaligned
  else match regAt a with
    | some r => if width = .w32 then writeReg r v s else .refused .registerWidth
    | none =>
      if inWindow inBase s.params.inCap a n then
        if s.busy then .refused .busyWrite else .next { s with mem := Memory.storeAll s.mem a (leBytes n v.toNat) }
      else if inWindow outBase s.params.outCap a n then .refused .writeToReadOnly
      else .refused .unmappedOffset

/-- One host access. -/
def hostAccess (access : HostAccess) (s : State) : Host.Outcome State Fault Refusal :=
  match access with
  | .read addr width => hostRead addr width s
  | .write addr width v => hostWrite addr width v s

end Sys2Proof.Machine
end

