-- ==== Sys2Proof/Machine/Turns.lean ====
section
/-! DEFINITION. One turn of one agent (00_scope.md rule R3): the block's own step (40_command_cycle.md rules R121, R127), a
host access, or the environment. -/
namespace Sys2Proof.Machine

/-- Dispatch (40_command_cycle.md rule R121; 30_encoding.md rule R92): to the start of the command's pseudocode, or 0x44. -/
def dispatchCommand (s : State) : State :=
  match decodeWord s.curCmd with
  | .ok _ => { s with phase := .start }
  | .error _ => fail .unknownCommand 0 s

/-- The block's step: nothing when idle, dispatch after issue, else the command in CURCMD from where PHASE stands. A word
that is no command, which only dispatch can meet, ends in 0x44 here too. -/
def blockStep (s : State) : Host.Outcome State Fault Refusal :=
  match s.phase with
  | .idle => .next s
  | .dispatch => .next (dispatchCommand s)
  | .start | .opening _ | .sending _ _ _ | .refilling _ _ _ _ =>
    match decodeWord s.curCmd with
    | .ok i => exec i s
    | .error _ => .next (fail .unknownCommand 0 s)

/-- One turn. -/
def takeTurn (t : Turn) (s : State) : Host.Outcome State Fault Refusal :=
  match t with
  | .block => blockStep s
  | .host access => hostAccess access s
  | .tick ticks => .next (tick ticks s)
  | .peerSend bytes => peerSend bytes s
  | .peerClose => peerClose s
  | .event e => takeEvent e s

/-- The machine takes the next turn of the agenda; when no agent has one, the block steps (log entry 1). -/
def nextTurn (s : State) : Host.Outcome State Fault Refusal :=
  match s.agenda with
  | [] => blockStep s
  | t :: rest => takeTurn t { s with agenda := rest }

/-- The block's step comes next: nothing to add when no turn is pending, else a block turn first. -/
def blockFirst (turns : List Turn) : List Turn :=
  match turns with
  | [] => []
  | t :: rest => .block :: t :: rest

/-- A command word issued (40_command_cycle.md rule R120) and dispatched (rule R121): its pseudocode runs at the block's next
step, which comes next (log entry 2). -/
def loadCommand (w : Word) (s : State) : State :=
  { issue w s with phase := .start, agenda := blockFirst s.agenda }

end Sys2Proof.Machine
end

