-- ==== Sys2Proof/Machine/Step.lean ====
section
/-! DEFINITION. The machine's step, and how one command word is put where the next step runs it. -/
namespace Sys2Proof.Machine

/-- One step: one turn of one agent (00_scope.md rule R3). -/
def step (s : State) : Host.Outcome State Fault Refusal := nextTurn s

/-- The state whose next step runs the command word w (its bits above nbits zero): the block fetches no code (10_state.md
rule R21), so this stands for the host's CMD write and the dispatch step (log entry 2). -/
def State.withFetchWord (s : State) (nbits w : Nat) : State := loadCommand (BitVec.ofNat 32 (w % 2 ^ nbits)) s

end Sys2Proof.Machine
end

