-- ==== Sys2Proof/WellFormed.lean ====
section
/-! DEFINITION. Well-formedness. An Instr needs no check: its only operands are Booleans, so every term of Instr is a
command of rule R84. What can be ill formed on this hardware is an INSTANCE: its parameters (00_scope.md rules R4, R5,
20_memory.md rule R60) and its construction arguments (70_reset_and_hazards.md rule R310). -/
namespace Sys2Proof

/-- 00_scope.md rule R5 with 20_memory.md rule R60 (each window holds at most 2^24 bytes) and, DEDUCED from the width of
the PARAM registers (10_state.md rule R33; log entry 18), every parameter below 2^32. IN_CAP ≥ 0 holds of every Nat, and
the bounds on OUT_CAP bound MAX_PACKET_LEN. DEFAULT_RX_TIMEOUT is > 0 (92_eei_decisions.md D34, which rule R4 cites;
93_implementation_defined.md I3); that an instance with 0 is refused like one that breaks rule R5, whose list leaves it out,
is DEDUCED (log entry 26). -/
def Params.wf (p : Params) : Bool :=
  decide (2 ≤ p.maxPacketLen) && decide (p.maxPacketLen + 2 ≤ p.outCap) && decide (1 ≤ p.rxChunkMax)
    && decide (1 ≤ p.ticksPerUnit) && decide (p.inCap ≤ 2 ^ 24) && decide (p.outCap ≤ 2 ^ 24)
    && decide (p.rxChunkMax < 2 ^ 32) && decide (p.ticksPerUnit < 2 ^ 32) && decide (1 ≤ p.defaultRxTimeout)

/-- A legal CFG_PORT (10_state.md rule R28; 70_reset_and_hazards.md rule R310). -/
def portOk (port : Int) : Bool := decide (1 ≤ port) && decide (port ≤ 65535)

/-- A legal CFG_TIMEOUT: strictly positive (70_reset_and_hazards.md rule R310). -/
def timeoutOk (ticks : Int) : Bool := decide (0 < ticks)

/-- CFG_TIMEOUT is a 32-bit register (10_state.md section 1; log entry 18). -/
def timeoutFits (ticks : Int) : Bool := decide (ticks < 2 ^ 32)

end Sys2Proof
end

