-- ==== Sys2Proof/Machine/Construct.lean ====
section
/-! DEFINITION. Construction, the block's only reset (70_reset_and_hazards.md rules R310, R311). -/
namespace Sys2Proof.Machine

/-- `Construct(host, port, timeout)`: the port check, then the timeout check, then the parameters (rule R310). An
instance whose timeout does not fit the 32-bit CFG_TIMEOUT is refused (log entry 18), and so is one whose DEFAULT_RX_TIMEOUT is 0,
unless that value is the timeout and the earlier check ends in 0x47 (log entry 26). -/
def construct (params : Params) (host : Bytes) (port : Int) (timeout : Option Int) : Host.Outcome State Fault Refusal :=
  let t := timeout.getD (params.defaultRxTimeout : Int)
  if !portOk port then .fault .badPort
  else if !timeoutOk t then .fault .badTimeout
  else if !(params.wf && timeoutFits t) then .refused .illFormedInstance
  else .next (State.initial params host (BitVec.ofInt 16 port) (BitVec.ofInt 32 t))

end Sys2Proof.Machine
end

