-- ==== Sys2Proof/Safety.lean ====
section
/-! DEFINITION. The terms the statements are written in: the spec's tables and grammars as predicates of their own (the opcode
rows, the wire's tokens, the refused accesses), what a completion and a failure leave, the frames, and the invariant. -/
namespace Sys2Proof.Safety
open Sys2Proof.Machine

/-! ## The opcode table (30_encoding.md rule R84, spec/opcode_table.json) -/

/-- One row: a word matches when its masked bits are the pattern. -/
structure OpcodeRow where
  pattern : Word
  mask : Word
deriving DecidableEq, Repr

/-- The sixteen rows, in the table's order. -/
def opcodeRows : List OpcodeRow :=
  [⟨0x00000001, 0xFFFFFFFF⟩, ⟨0x00000002, 0xFFFFFFFF⟩, ⟨0x00000003, 0xFFFFFFFF⟩, ⟨0x00000004, 0xFFFFFEFF⟩,
   ⟨0x00000005, 0xFFFFFFFF⟩, ⟨0x00000006, 0xFFFFFFFF⟩] ++
  [⟨0x00000010, 0xFFFFFFFF⟩, ⟨0x00000011, 0xFFFFFFFF⟩, ⟨0x00000012, 0xFFFFFEFF⟩] ++
  [⟨0x00000020, 0xFFFFFCFF⟩, ⟨0x00000021, 0xFFFFFFFF⟩, ⟨0x00000022, 0xFFFFFFFF⟩, ⟨0x00000023, 0xFFFFFFFF⟩,
   ⟨0x00000024, 0xFFFFFFFF⟩] ++
  [⟨0x00000030, 0xFFFFFEFF⟩, ⟨0x00000031, 0xFFFFFFFF⟩]

/-- A word matches a row. -/
def OpcodeRow.matches (r : OpcodeRow) (w : Word) : Bool := w &&& r.mask == r.pattern

/-- The reserved opcodes (30_encoding.md rule R92). -/
def ReservedOpcode (o : Nat) : Prop :=
  o = 0x00 ∨ (0x07 ≤ o ∧ o ≤ 0x0F) ∨ (0x13 ≤ o ∧ o ≤ 0x1F) ∨ (0x25 ≤ o ∧ o ≤ 0x2F) ∨ (0x32 ≤ o ∧ o ≤ 0xFF)

/-- The opcodes whose F0 rule R84 gives a meaning: CREATE_PACKET, SET_ACK_MODE, SEND_PACKET, RECV_PACKET. -/
def UsesF0 (o : Nat) : Prop := o = 0x04 ∨ o = 0x12 ∨ o = 0x20 ∨ o = 0x30

/-- A reserved command word (30_encoding.md rule R92): a reserved opcode, a bit of [31:10] set, or F0 or F1 set where rule
R84 gives 0. -/
def ReservedWord (w : Word) : Prop :=
  ReservedOpcode (w.toNat % 256) ∨ w.toNat / 1024 ≠ 0 ∨ (w.getLsbD 8 = true ∧ ¬ UsesF0 (w.toNat % 256)) ∨
    (w.getLsbD 9 = true ∧ w.toNat % 256 ≠ 0x20)

/-! ## The wire's grammar (30_encoding.md rules R86 to R89, R91, R93) -/

/-- The bytes Encode sends for a payload byte (rule R86; 41_codec.md rule R140). -/
def escaped (b : Byte) : Bytes := if b = 0x7D ∨ b = 0x24 ∨ b = 0x23 then [0x7D, b ^^^ 0x20] else [b]

/-- A legal count byte (rule R87). -/
def LegalCount (c : Byte) : Prop := 0x20 ≤ c.toNat ∧ c.toNat ≤ 0x7E ∧ c ≠ 0x23 ∧ c ≠ 0x24

/-- The encoded payload e is a sequence of tokens that stands for out (rules R86, R87, R88, R91). -/
inductive Decodes : Bytes → Bytes → Prop where
  | nil : Decodes [] []
  | escape (x : Byte) {e out : Bytes} : Decodes e out → Decodes (0x7D :: x :: e) ((x ^^^ 0x20) :: out)
  | run (b c : Byte) {e out : Bytes} : b ≠ 0x7D → LegalCount c → Decodes e out →
      Decodes (b :: 0x2A :: c :: e) (List.replicate (c.toNat - 28) b ++ out)
  | literal (b : Byte) {e out : Bytes} : b ≠ 0x7D → e.head? ≠ some 0x2A → Decodes e out → Decodes (b :: e) (b :: out)

/-- The first malformed token of e in scan order, and its error code (41_codec.md rule R141; rule R93). -/
inductive Malformed : Bytes → Byte → Prop where
  | escMissing : Malformed [0x7D] 0x11
  | countMissing (b : Byte) : b ≠ 0x7D → Malformed [b, 0x2A] 0x12
  | countFraming (b c : Byte) (e : Bytes) : b ≠ 0x7D → c = 0x23 ∨ c = 0x24 → Malformed (b :: 0x2A :: c :: e) 0x13
  | countRange (b c : Byte) (e : Bytes) : b ≠ 0x7D → c.toNat < 0x20 ∨ 0x7E < c.toNat →
      Malformed (b :: 0x2A :: c :: e) 0x14
  | afterEscape (x : Byte) {e : Bytes} {k : Byte} : Malformed e k → Malformed (0x7D :: x :: e) k
  | afterRun (b c : Byte) {e : Bytes} {k : Byte} : b ≠ 0x7D → LegalCount c → Malformed e k →
      Malformed (b :: 0x2A :: c :: e) k
  | afterLiteral (b : Byte) {e : Bytes} {k : Byte} : b ≠ 0x7D → e.head? ≠ some 0x2A → Malformed e k →
      Malformed (b :: e) k

/-- The sum of the bytes mod 256 (41_codec.md rule R143), byte by byte. -/
def sumMod256 : Bytes → Nat
  | [] => 0
  | b :: e => (b.toNat + sumMod256 e) % 256

/-- The byte is the lowercase hex digit of v (30_encoding.md rule R96). -/
def LowerDigit (v : Nat) (b : Byte) : Prop :=
  (v < 10 ∧ b.toNat = 0x30 + v) ∨ (10 ≤ v ∧ v < 16 ∧ b.toNat = 0x61 + (v - 10))

/-- The byte is a hex digit of value v under a policy (41_codec.md rule R144). -/
def DigitOf (policy : HexCasePolicy) (v : Nat) (b : Byte) : Prop :=
  LowerDigit v b ∨ (policy ≠ .lowerOnly ∧ 10 ≤ v ∧ v < 16 ∧ b.toNat = 0x41 + (v - 10))

/-- The two characters are the checksum of e as the block sends it (41_codec.md rule R143; 30_encoding.md rule R89). -/
def IsChecksum (e : Bytes) (hi lo : Byte) : Prop :=
  LowerDigit (sumMod256 e / 16) hi ∧ LowerDigit (sumMod256 e % 16) lo

/-- The two characters are accepted as the checksum of e (CkEqual after CkSyntaxOK, 41_codec.md rule R144). -/
def AcceptedChecksum (policy : HexCasePolicy) (e : Bytes) (hi lo : Byte) : Prop :=
  match policy with
  | .anyCaseNumeric => DigitOf policy (sumMod256 e / 16) hi ∧ DigitOf policy (sumMod256 e % 16) lo
  | .lowerOnly | .anyCaseText => IsChecksum e hi lo

/-- The payload condition of 41_codec.md rule R160: every `*` at an index k ≥ 1 has `}`, `$` or `#` before it. -/
def StarsFollowEscaped (d : Bytes) : Prop :=
  ∀ k : Nat, d[k + 1]? = some (0x2A : Byte) →
    d[k]? = some (0x7D : Byte) ∨ d[k]? = some (0x24 : Byte) ∨ d[k]? = some (0x23 : Byte)

/-- The shape of every frame RecvFrame returns (44_packet_exchange.md rule R263): `$`, a body without `#`, `#`, two
characters, and at most MAX_PACKET_LEN bytes from `$` to `#`. -/
def FrameShape (max : Nat) (p : Bytes) : Prop :=
  ∃ body c0 c1, p = 0x24 :: body ++ [0x23, c0, c1] ∧ 0x23 ∉ body ∧ body.length + 2 ≤ max

/-! ## What a command's end leaves -/

/-- A successful completion (40_command_cycle.md rule R123): OUT, OUT_LEN, RESULT, ARMED, STATUS and PHASE. -/
structure Completed (t : State) (out : Bytes) (result : Word) : Prop where
  outBytes : t.outBytes = out
  outLen : t.outLen.toNat = out.length
  result : t.result = result
  armed : t.armed = false
  done : t.done = true
  err : t.err = false
  errCode : t.errCode = 0
  idle : t.phase = .idle

/-- A failed completion with a code (40_command_cycle.md rule R125). The OUT bytes are unspecified, so nothing is said of
them. -/
structure Failed (t : State) (code : Byte) (result : Word) : Prop where
  outLen : t.outLen = 0
  result : t.result = result
  armed : t.armed = false
  errCode : t.errCode = code
  err : t.err = true
  done : t.done = true
  idle : t.phase = .idle

/-! ## Frames -/

/-- What no command ever changes: configuration, parameters, CURCMD, ARG, IN_LEN, every byte below the OUT window (all of
IN), `now`, and what belongs to the host and the agenda. -/
structure SameFixed (s t : State) : Prop where
  params : t.params = s.params
  cfgHost : t.cfgHost = s.cfgHost
  cfgPort : t.cfgPort = s.cfgPort
  cfgTimeout : t.cfgTimeout = s.cfgTimeout
  curCmd : t.curCmd = s.curCmd
  arg : t.arg = s.arg
  inLen : t.inLen = s.inLen
  inBytes : ∀ a, a < outBase → t.byteAt a = s.byteAt a
  now : t.now = s.now
  outputsSettled : t.outputsSettled = s.outputsSettled
  busData : t.busData = s.busData
  agenda : t.agenda = s.agenda

/-- The transport and the peer are as before. -/
structure SameTransport (s t : State) : Prop where
  transportOpen : t.transportOpen = s.transportOpen
  peerClosed : t.peerClosed = s.peerClosed
  rxStream : t.rxStream = s.rxStream
  txLog : t.txLog = s.txLog
  peerGot : t.peerGot = s.peerGot

/-- LINK, ACK_MODE, RXBUF, ACC and T_ARM are as before. After a Fail the clause on ACC is the model's reading (log entry 11). -/
structure SameLinkSide (s t : State) : Prop where
  link : t.link = s.link
  ackMode : t.ackMode = s.ackMode
  rxBuf : t.rxBuf = s.rxBuf
  acc : t.acc = s.acc
  tArm : t.tArm = s.tArm

/-- STATUS, RESULT, OUT_LEN and every byte of memory are as before: no completion has happened. -/
structure SameOutputs (s t : State) : Prop where
  done : t.done = s.done
  err : t.err = s.err
  errCode : t.errCode = s.errCode
  result : t.result = s.result
  outLen : t.outLen = s.outLen
  bytes : ∀ a, t.byteAt a = s.byteAt a

/-- Every byte is as before but the n bytes OUT[0..n). -/
def SameOutsideOut (s t : State) (n : Nat) : Prop :=
  ∀ a, a < outBase ∨ outBase + n ≤ a → t.byteAt a = s.byteAt a

/-! ## Operand conditions -/

/-- IN_LEN is in range (40_command_cycle.md rule R122). -/
def InLenOk (s : State) : Prop := s.inLen.toNat ≤ s.params.inCap

/-- The two characters ARG holds pass CkSyntaxOK (41_codec.md rule R144). -/
def ArgIsChecksum (s : State) : Prop :=
  (∃ v, DigitOf s.params.hexCase v (s.arg.extractLsb' 0 8)) ∧ (∃ v, DigitOf s.params.hexCase v (s.arg.extractLsb' 8 8))

/-! ## Waits (42_rx_path.md rule R204) -/

/-- The event ends the wait that PHASE stands in: the one wait of rule R204 that lists it, with no answer yet. -/
def EndsTheWait (p : Phase) : Event → Prop
  | .opened | .openFailed => p = .opening none
  | .txDone | .txFail _ => ∃ packet pt, p = .sending packet pt none
  | .chunk _ | .expire | .rxError | .endOfStream => ∃ pt t0 w, p = .refilling pt t0 w none

/-! ## The ends of an ACK wait (44_packet_exchange.md rule R241) -/

/-- What the byte an ACK wait reads decides: `+` completes and leaves every byte of memory (rule R123 writes no OUT byte for an
empty result), `-` is consumed and fails with 0x21, any other byte is pushed back and fails with 0x22. -/
def AckEnds (s t : State) (b : Byte) (rest : Bytes) : Prop :=
  (b = 0x2B → Completed t [] 0 ∧ t.rxBuf = rest ∧ SameOutsideOut s t 0) ∧
  (b = 0x2D → Failed t 0x21 0x2D ∧ t.rxBuf = rest) ∧
  (b ≠ 0x2B → b ≠ 0x2D → Failed t 0x22 (b.setWidth 32) ∧ t.rxBuf = b :: rest)

/-- The block has begun to wait for more bytes at `now`, for the bound of 42_rx_path.md rule R193. -/
def WaitsAt (t : State) (pt : ReadPoint) (r : Int) : Prop :=
  t.phase = .refilling pt t.now (if r < (t.params.ticksPerUnit : Int) then (t.params.ticksPerUnit : Int) else r) none

/-! ## The frame scan (44_packet_exchange.md rule R246) -/

/-- The bytes of its frame a scan has taken, at a point of it. -/
def taken (acc : Bytes) : ScanPoint → Bytes
  | .ck1 c0 => acc ++ [c0]
  | .sop | .body | .ck0 => acc

/-- ACC at each point of the scan. -/
def ScanOk (max : Nat) (acc : Bytes) : ScanPoint → Prop
  | .sop => acc = []
  | .body => ∃ body, acc = 0x24 :: body ∧ 0x23 ∉ body ∧ acc.length < max
  | .ck0 | .ck1 _ => ∃ body, acc = 0x24 :: body ++ [0x23] ∧ 0x23 ∉ body ∧ acc.length ≤ max

/-- A receive scans at its next step, having taken the bytes `held`: none at its start, and those of its point on after a
chunk. -/
def ScansAfter (s : State) (held : Bytes) : Prop :=
  (s.phase = .start ∧ s.link = true ∧ held = []) ∨
  ∃ pt t0 w, s.phase = .refilling (.scan pt) t0 w (some .data) ∧ s.armed = true ∧
    ScanOk s.params.maxPacketLen s.acc pt ∧ held = taken s.acc pt

/-- When the window of the scan of that next step begins: now, or when it was armed (42_rx_path.md rule R199). -/
def windowStart (s : State) : Int := if s.phase = .start then s.now else s.tArm

/-- What a receive's step leaves alone: LINK, ACK_MODE, what is fixed, and the transport; T_ARM is the window's start. -/
structure ReceiveFrame (s t : State) : Prop where
  link : t.link = s.link
  ackMode : t.ackMode = s.ackMode
  tArm : t.tArm = windowStart s
  fixed : SameFixed s t
  transport : SameTransport s t

/-- A receive has used up its bytes inside a frame: it waits with what it has taken in ACC (a first checksum character
in PHASE), or, when no time remains, fails with 0x31 (42_rx_path.md rules R193, R195). -/
def ScanWaits (s t : State) (pt : ScanPoint) (acc : Bytes) : Prop :=
  let r := (s.cfgTimeout.toNat : Int) - (s.now - windowStart s)
  ReceiveFrame s t ∧
  (0 < r → WaitsAt t (.scan pt) r ∧ t.acc = acc ∧ t.rxBuf = [] ∧ t.armed = true ∧ SameOutputs s t) ∧
  (r ≤ 0 → Failed t 0x31 0 ∧ t.acc = [] ∧ t.rxBuf.length ≤ s.params.rxChunkMax)

/-! ## The stream a receive reads (44_packet_exchange.md rule R260) -/

/-- The bytes of the connection that the running receive has taken or not yet taken, in order: at its start and in each of
its waits. -/
def inFlight (s : State) : Bytes :=
  match s.phase with
  | .refilling (.scan pt) _ _ _ => taken s.acc pt ++ s.rxBuf ++ s.rxStream
  | .sending _ (.plus p) _ => p ++ s.rxBuf ++ s.rxStream
  | _ => s.rxBuf ++ s.rxStream

/-- The bytes a turn appends to RXSTREAM. -/
def appendedBy : Turn → Bytes
  | .peerSend bytes => bytes
  | _ => []

/-- A RECV_PACKET or RECV_AND_DECODE is at its start or in one of its waits. -/
def InReceive (s : State) : Prop :=
  (s.curCmd = 0x30 ∨ s.curCmd = 0x130 ∨ s.curCmd = 0x31) ∧ s.phase ≠ .idle ∧ s.phase ≠ .dispatch

/-- What a completed receive has returned of the frame p: the frame itself, or its decoded payload. -/
def Returned (s t : State) (p : Bytes) : Prop :=
  ((s.curCmd = 0x30 ∨ s.curCmd = 0x130) → t.outBytes = p) ∧
  (s.curCmd = 0x31 → ∃ body c0 c1, p = 0x24 :: body ++ [0x23, c0, c1] ∧ Decodes body t.outBytes)

/-! ## Host accesses (20_memory.md rules R60, R62) -/

/-- The access's address, width in bytes and direction. -/
def accessAddr : HostAccess → Nat
  | .read a _ => a.toNat
  | .write a _ _ => a.toNat

/-- The access's width. -/
def accessWidth : HostAccess → Width
  | .read _ w => w
  | .write _ w _ => w

/-- The access is a write. -/
def isWrite : HostAccess → Bool
  | .read _ _ => false
  | .write _ _ _ => true

/-- A register offset of rule R60: a multiple of 4 from 0x00 to 0x34. -/
def IsRegister (a : Nat) : Prop := a % 4 = 0 ∧ a ≤ 0x34

/-- The register offsets that rule R60 makes read only: all but CMD, ARG and IN_LEN. -/
def IsReadOnlyRegister (a : Nat) : Prop := IsRegister a ∧ a ≠ 0x00 ∧ a ≠ 0x08 ∧ a ≠ 0x10

/-- PARAM_POLICY's fields (10_state.md rule R33). -/
def policyNumber (p : Params) : Nat :=
  (match p.hexCase with
    | .lowerOnly => 0
    | .anyCaseText => 1
    | .anyCaseNumeric => 2) +
  256 * (match p.eof with
    | .timeoutAtDeadline => 0
    | .transportError => 1)

/-- The registers a read always shows, by offset, with their values (20_memory.md rule R60; 10_state.md rules R28, R31,
R33). -/
def shownRegisters (s : State) : List (Word × Nat) :=
  [(0x08, s.arg.toNat), (0x10, s.inLen.toNat), (0x18, s.cfgTimeout.toNat), (0x1C, s.cfgPort.toNat)] ++
  [(0x20, s.params.maxPacketLen), (0x24, s.params.inCap), (0x28, s.params.outCap), (0x2C, s.params.rxChunkMax),
   (0x30, s.params.ticksPerUnit), (0x34, policyNumber s.params)]

/-- The registers a read shows once the host has seen DONE = 1 (rule R69): RESULT and OUT_LEN. -/
def outputRegisters (s : State) : List (Word × Nat) := [(0x0C, s.result.toNat), (0x14, s.outLen.toNat)]

/-- The n bytes at an address as one number, the lowest address the least significant (20_memory.md rule R65). -/
def littleEndian (s : State) (a : Nat) : Nat → Nat
  | 0 => 0
  | n + 1 => (s.byteAt a).toNat + 256 * littleEndian s (a + 1) n

/-- The access lies in the IN window. -/
def InInWindow (s : State) (x : HostAccess) : Prop :=
  0x01000000 ≤ accessAddr x ∧ accessAddr x + widthBytes (accessWidth x) ≤ 0x01000000 + s.params.inCap

/-- The access lies in the OUT window. -/
def InOutWindow (s : State) (x : HostAccess) : Prop :=
  0x02000000 ≤ accessAddr x ∧ accessAddr x + widthBytes (accessWidth x) ≤ 0x02000000 + s.params.outCap

/-- The words of the eight commands that rule R222 aborts: CONNECT, SEND_PACKET, CHECK_ACK, SEND_ACK, SEND_NACK,
SEND_INTERRUPT, RECV_PACKET, RECV_AND_DECODE. -/
def AbortableWord (w : Word) : Prop :=
  w = 0x10 ∨ (w = 0x20 ∨ w = 0x120 ∨ w = 0x220 ∨ w = 0x320) ∨ w = 0x21 ∨ w = 0x22 ∨ w = 0x23 ∨ w = 0x24 ∨
    (w = 0x30 ∨ w = 0x130) ∨ w = 0x31

/-- The write that rule R222 accepts while a command is in progress: the DISCONNECT word to CMD, the command in CURCMD being
one of the eight it names. -/
def IsAbort (s : State) (x : HostAccess) : Prop := x = .write 0 .w32 0x00000011 ∧ AbortableWord s.curCmd

/-- Rule R62: the accesses that have no meaning, clauses (a) to (f) in the rule's order. -/
def RefusedAccess (s : State) (x : HostAccess) : Prop :=
  (¬ IsRegister (accessAddr x) ∧ ¬ InInWindow s x ∧ ¬ InOutWindow s x) ∨
  (isWrite x = false ∧ accessAddr x = 0) ∨
  (isWrite x = true ∧ (IsReadOnlyRegister (accessAddr x) ∨ InOutWindow s x)) ∨
  (IsRegister (accessAddr x) ∧ accessWidth x ≠ .w32) ∨
  (accessAddr x % widthBytes (accessWidth x) ≠ 0) ∨
  (isWrite x = true ∧ s.phase ≠ .idle ∧ ¬ IsAbort s x ∧
    (accessAddr x = 0x00 ∨ accessAddr x = 0x08 ∨ accessAddr x = 0x10 ∨ InInWindow s x))

/-! ## The invariant -/

/-- The wait bound w of a refill begun at t0 (42_rx_path.md rule R193), and its place in time. -/
def WaitOk (s : State) (t0 w : Int) : Prop :=
  let r := (s.cfgTimeout.toNat : Int) - (t0 - s.tArm)
  0 < r ∧ w = (if r < (s.params.ticksPerUnit : Int) then (s.params.ticksPerUnit : Int) else r) ∧ s.tArm ≤ t0 ∧ t0 ≤ s.now

/-- A refill's answer against RXBUF: bytes are there exactly when a chunk has arrived (42_rx_path.md rules R195, R201). -/
def AnswerOk (s : State) (answer : Option RxAnswer) : Prop := answer = some .data ↔ s.rxBuf ≠ []

/-- What holds in each phase: which command CURCMD is, the deadline, ACC, LINK, and the wait's own data. That ACC is empty once
a receive has its frame (idle, and in the `+` write) is the model's reading (log entry 11), and that the transport is open from
Opened on (log entry 17). -/
def PhaseOk (s : State) : Prop :=
  match s.phase with
  | .idle | .dispatch | .start => s.armed = false ∧ s.acc = []
  | .opening answer =>
    decodeWord s.curCmd = .ok .connect ∧ s.armed = false ∧ s.acc = [] ∧ s.link = false ∧
      (answer = some .opened → s.transportOpen = true)
  | .sending packet .command _ =>
    s.armed = false ∧ s.acc = [] ∧ s.link = true ∧
      ((∃ ck chk, decodeWord s.curCmd = .ok (.sendPacket ck chk)) ∨
        (decodeWord s.curCmd = .ok .sendAck ∧ packet = [0x2B]) ∨
        (decodeWord s.curCmd = .ok .sendNack ∧ packet = [0x2D]) ∨
        (decodeWord s.curCmd = .ok .sendInterrupt ∧ packet = [0x03]))
  | .sending packet (.plus p) _ =>
    s.armed = true ∧ s.acc = [] ∧ s.link = true ∧ packet = [0x2B] ∧ FrameShape s.params.maxPacketLen p ∧
      validateOf s.params.hexCase p = none ∧
      (decodeWord s.curCmd = .ok (.recvPacket true) ∨ decodeWord s.curCmd = .ok .recvAndDecode)
  | .refilling .ack t0 w answer =>
    s.armed = true ∧ s.acc = [] ∧ s.link = true ∧ WaitOk s t0 w ∧ AnswerOk s answer ∧
      ((∃ ck, decodeWord s.curCmd = .ok (.sendPacket ck true)) ∨ decodeWord s.curCmd = .ok .checkAck)
  | .refilling (.scan pt) t0 w answer =>
    s.armed = true ∧ s.link = true ∧ WaitOk s t0 w ∧ AnswerOk s answer ∧ ScanOk s.params.maxPacketLen s.acc pt ∧
      ((∃ v, decodeWord s.curCmd = .ok (.recvPacket v)) ∨ decodeWord s.curCmd = .ok .recvAndDecode)

/-- The invariant every step keeps. -/
structure StateInv (s : State) : Prop where
  /-- rules R4, R5, R60 -/
  params : s.params.wf = true
  /-- rules R28, R310 -/
  timeout : 0 < s.cfgTimeout.toNat
  /-- rules R28, R310 -/
  port : 0 < s.cfgPort.toNat
  /-- memory is in canonical form -/
  memWf : Memory.wf s.mem = true
  /-- rule R60: every written byte lies in the IN or the OUT window -/
  memInWindows : ∀ c ∈ s.mem, inWindow inBase s.params.inCap c.1 1 = true ∨ inWindow outBase s.params.outCap c.1 1 = true
  /-- rule R201 -/
  rxBuf : s.rxBuf.length ≤ s.params.rxChunkMax
  /-- rule R220: RXBUF is empty when LINK = 0 -/
  rxBufUnlinked : s.link = false → s.rxBuf = []
  /-- 10_state.md section 1: LINK mirrors the open transport -/
  linkOpen : s.link = true → s.transportOpen = true
  /-- rule R221: a closed transport holds no bytes; that its peer's side is not closed is the model's reading (log entry 21) -/
  closed : s.transportOpen = false → s.rxStream = [] ∧ s.peerClosed = false
  /-- rule R123 -/
  outLen : s.outLen.toNat ≤ s.params.outCap
  /-- rule R31: ARG[31:16] reads as 0 -/
  arg : s.arg.extractLsb' 16 16 = 0
  /-- rules R30, R120: BUSY and DONE are never both 1, and while BUSY the record is clear -/
  busy : s.phase ≠ .idle → s.done = false ∧ s.err = false ∧ s.result = 0 ∧ s.outLen = 0
  /-- rule R30: ERR = 1 only with DONE = 1 -/
  errDone : s.err = true → s.done = true
  /-- rules R30, R280: ERRCODE is 0 exactly when ERR = 0, and else a code of rule R281 -/
  errCode : if s.err = true then ∃ e : Err, s.errCode = e.code else s.errCode = 0
  /-- rule R69: the host knows the outputs only of a finished command -/
  settled : s.outputsSettled = true → s.done = true
  /-- rule R25: the window's start is in the past -/
  tArm : s.armed = true → s.tArm ≤ s.now
  phase : PhaseOk s

end Sys2Proof.Safety
end

