-- ==== Sys2Proof/Certificates/Slice0/Obligations.lean ====
section
/-! DEFINITION. The statements for the provers, from the spec's numbered rules. `exec i s = .next t` is the command's own step
in state s; `step` is one turn of one agent (log entry 1). -/
open Sys2Proof Sys2Proof.Machine Sys2Proof.Safety

/-! ## Encoding, dispatch, issue -/

/-- Decoding the encoded bytes of a command gives it back, whatever follows, and a word that decodes to a command is that
command's word (30_encoding.md rules R80, R84). -/
def Obligations.EncodeDecodeAgree : Prop :=
  (∀ (i : Instr) (rest : Bytes), decodeBytes (encodeBytes i ++ rest) = .ok (i, rest)) ∧
  (∀ (w : Word) (i : Instr), decodeWord w = .ok i → encode i = w)

/-- A word is reserved (rule R92) exactly when it matches no row of rule R84, exactly when the decoder refuses it; and no word
matches two rows. -/
def Obligations.ReservedWordsMatchNoRow : Prop :=
  ∀ w : Word,
    (ReservedWord w ↔ ∀ r ∈ opcodeRows, r.matches w = false) ∧
    (ReservedWord w ↔ ∀ i, decodeWord w ≠ .ok i) ∧
    (∀ r ∈ opcodeRows, ∀ q ∈ opcodeRows, r.matches w = true → q.matches w = true → r = q)

/-- The word values of 30_encoding.md rule R94, the four forms of SEND_PACKET and both forms of each flagged command among
them, decode to the commands they stand for. -/
def Obligations.SpecWordsDecode : Prop :=
  decodeWord 0x00000220 = .ok (.sendPacket false true) ∧ decodeWord 0x00000320 = .ok (.sendPacket true true) ∧
  decodeWord 0x00000020 = .ok (.sendPacket false false) ∧ decodeWord 0x00000120 = .ok (.sendPacket true false) ∧
  decodeWord 0x00000004 = .ok (.createPacket false) ∧ decodeWord 0x00000104 = .ok (.createPacket true) ∧
  decodeWord 0x00000130 = .ok (.recvPacket true) ∧ decodeWord 0x00000030 = .ok (.recvPacket false) ∧
  decodeWord 0x00000112 = .ok (.setAckMode true) ∧ decodeWord 0x00000012 = .ok (.setAckMode false) ∧
  decodeWord 0x00000031 = .ok .recvAndDecode ∧ decodeWord 0x00000011 = .ok .disconnect

/-- The block steps when no turn is pending, and on a block turn: nothing while idle (10_state.md rule R21), dispatch after
issue (40_command_cycle.md rule R121; DispatchLooksUpTheWord says what that does), and past it the command that CURCMD decodes
to, from where PHASE stands. A host turn is that access and an environment turn that event. The peer's bytes go to the end of
RXSTREAM whenever the transport is open, its close is recorded then, and neither happens on a closed transport (10_state.md
rule R36; 42_rx_path.md rule R204; log entries 9, 17, 21); a tick moves `now`. A command word put where the step fetches runs
at the very next step, whatever turns are pending, and they stay. The agenda of turns is log entry 1, the fetch word log entry
2. -/
def Obligations.StepRunsDecodedCommand : Prop :=
  (∀ s : State, (s.agenda = [] → step s = blockStep s) ∧
    (∀ rest, s.agenda = .block :: rest → step s = blockStep { s with agenda := rest })) ∧
  (∀ s : State, s.phase = .idle → blockStep s = .next s) ∧
  (∀ (s : State) (i : Instr), s.phase ≠ .idle → s.phase ≠ .dispatch → decodeWord s.curCmd = .ok i →
    (s.agenda = [] → step s = exec i s) ∧
    (∀ rest, s.agenda = .block :: rest → step s = exec i { s with agenda := rest })) ∧
  (∀ (s : State) (x : HostAccess) (rest : List Turn), s.agenda = .host x :: rest →
    step s = hostAccess x { s with agenda := rest }) ∧
  (∀ (s : State) (e : Event) (rest : List Turn), s.agenda = .event e :: rest →
    step s = takeEvent e { s with agenda := rest }) ∧
  (∀ (s : State) (bytes : Bytes) (rest : List Turn), s.agenda = .peerSend bytes :: rest →
    (s.transportOpen = true → step s = .next { s with agenda := rest, rxStream := s.rxStream ++ bytes }) ∧
    (s.transportOpen = false → step s = .refused .eventNotEnabled)) ∧
  (∀ (s : State) (rest : List Turn), s.agenda = .peerClose :: rest →
    (s.transportOpen = true → step s = .next { s with agenda := rest, peerClosed := true }) ∧
    (s.transportOpen = false → step s = .refused .eventNotEnabled)) ∧
  (∀ (s : State) (n : Nat) (rest : List Turn), s.agenda = .tick n :: rest →
    step s = .next { s with agenda := rest, now := s.now + (n : Int) }) ∧
  (∀ (s : State) (i : Instr),
    step (s.withFetchWord 32 (encode i).toNat) = exec i { s.withFetchWord 32 (encode i).toNat with agenda := s.agenda })

/-- Issue (40_command_cycle.md rule R120): a CMD write while BUSY = 0. -/
def Obligations.CmdWriteIssues : Prop :=
  ∀ (s : State) (w : Word), s.phase = .idle →
    ∃ t, hostAccess (.write 0 .w32 w) s = .next t ∧ t.curCmd = w ∧ t.busy = true ∧ t.done = false ∧ t.err = false ∧ t.errCode = 0 ∧
      t.result = 0 ∧ t.outLen = 0 ∧ t.phase = .dispatch ∧
      SameLinkSide s t ∧ SameTransport s t ∧ t.arg = s.arg ∧ t.inLen = s.inLen ∧ t.armed = s.armed ∧ t.now = s.now ∧
      t.params = s.params ∧ t.cfgHost = s.cfgHost ∧ t.cfgPort = s.cfgPort ∧ t.cfgTimeout = s.cfgTimeout ∧
      ∀ a, t.byteAt a = s.byteAt a

/-- Dispatch (40_command_cycle.md rule R121; 30_encoding.md rule R92): to the command's start when a row matches; a word
that matches none completes with 0x44 and has no other effect. -/
def Obligations.DispatchLooksUpTheWord : Prop :=
  ∀ s : State, s.phase = .dispatch →
    ((∃ r ∈ opcodeRows, r.matches s.curCmd = true) → blockStep s = .next { s with phase := .start }) ∧
    ((∀ r ∈ opcodeRows, r.matches s.curCmd = false) →
      ∃ t, blockStep s = .next t ∧ Failed t 0x44 0 ∧ SameFixed s t ∧ SameLinkSide s t ∧ SameTransport s t)

/-! ## Completion, failure, status -/

/-- `Complete(out, result)` (40_command_cycle.md rules R123, R124), as every command ends: OUT holds `out` and nothing else in
memory changes, or, when `out` is too long, the command fails with 0x62. That a Fail leaves ACC as it was, empty in every
reachable state here, is the model's reading (log entry 11). -/
def Obligations.CompleteWritesTheResult : Prop :=
  ∀ (s : State) (out : Bytes) (r : Word), s.params.wf = true →
    (out.length ≤ s.params.outCap → Completed (complete out r s) out r ∧ SameOutsideOut s (complete out r s) out.length) ∧
    (s.params.outCap < out.length → Failed (complete out r s) 0x62 0) ∧
    SameFixed s (complete out r s) ∧ SameLinkSide s (complete out r s) ∧ SameTransport s (complete out r s)

/-- `Fail(code, result)` (40_command_cycle.md rule R125), the error entry, and what it leaves alone (60_exceptions.md rule
R285). That it leaves ACC too is the model's reading (log entry 11): rule R285's "dropped" is done by the scan and the abort
before their `Fail`, and every other command has ACC empty. -/
def Obligations.FailRecordsTheError : Prop :=
  ∀ (e : Err) (r : Word) (s : State),
    Failed (fail e r s) e.code r ∧ SameFixed s (fail e r s) ∧ SameLinkSide s (fail e r s) ∧ SameTransport s (fail e r s)

/-- A host read of STATUS returns the fields where 10_state.md rule R30 places them and changes no state of the block; one
that shows DONE = 1 lets the host rely on the outputs (20_memory.md rule R69; log entry 8). -/
def Obligations.StatusReadShowsTheFields : Prop :=
  ∀ s : State, ∃ t v, hostAccess (.read 4 .w32) s = .next t ∧ t.busData = some v ∧
    v.getLsbD 0 = s.busy ∧ v.getLsbD 1 = s.done ∧ v.getLsbD 2 = s.err ∧ v.getLsbD 3 = s.link ∧
    v.getLsbD 4 = s.ackMode ∧ v.extractLsb' 5 3 = 0 ∧ v.extractLsb' 8 8 = s.errCode ∧ v.extractLsb' 16 16 = 0 ∧
    (s.busy = true ↔ s.phase ≠ .idle) ∧ (t.outputsSettled = true ↔ s.outputsSettled = true ∨ v.getLsbD 1 = true) ∧
    { t with busData := s.busData, outputsSettled := s.outputsSettled } = s

/-! ## Host accesses -/

/-- Rule R62 of 20_memory.md: an access is refused exactly when one of the clauses (a) to (f) applies, and never faults. That
clause (a) takes in an access that begins inside a window and ends beyond it (rule R63 says which bytes it moves) is the
model's reading (log entry 23). -/
def Obligations.RefusedAccessesAreRuleR62 : Prop :=
  ∀ (s : State) (x : HostAccess), s.params.wf = true →
    ((∃ r, hostAccess x s = .refused r) ↔ RefusedAccess s x) ∧ (∀ f, hostAccess x s ≠ .fault f)

/-- What a register read returns (10_state.md rules R28, R31 to R33), RESULT and OUT_LEN once the host has seen DONE = 1
(20_memory.md rule R69; log entry 8). Rule R67 of 20_memory.md: reads change nothing of the block; a write to ARG, IN_LEN or
IN only stores its value; only a write to CMD does more. -/
def Obligations.HostAccessesOnlyStore : Prop :=
  ∀ (s t : State),
    (s.params.wf = true → ∀ x ∈ shownRegisters s, ∃ u v,
      hostAccess (.read x.1 .w32) s = .next u ∧ u.busData = some v ∧ v.toNat = x.2) ∧
    (s.outputsSettled = true → s.phase = .idle → ∀ x ∈ outputRegisters s, ∃ u v,
      hostAccess (.read x.1 .w32) s = .next u ∧ u.busData = some v ∧ v.toNat = x.2) ∧
    (∀ a width, hostAccess (.read a width) s = .next t →
      { t with busData := s.busData, outputsSettled := s.outputsSettled, draws := s.draws } = s) ∧
    (∀ v, hostAccess (.write 8 .w32 v) s = .next t →
      t = { s with arg := t.arg } ∧ t.arg.toNat = v.toNat % 65536) ∧
    (∀ v, hostAccess (.write 0x10 .w32 v) s = .next t → t = { s with inLen := v }) ∧
    (∀ a width v, s.params.wf = true → a ≠ 0 → a ≠ 8 → a ≠ 0x10 → hostAccess (.write a width v) s = .next t →
      t = { s with mem := t.mem } ∧
      (∀ k, k < widthBytes width → t.byteAt (a.toNat + k) = BitVec.ofNat 8 (v.toNat / 256 ^ k)) ∧
      (∀ b, b < a.toNat ∨ a.toNat + widthBytes width ≤ b → t.byteAt b = s.byteAt b))

/-- A read of the IN window returns its bytes, the lowest address least significant, and so does a read of OUT once the host
has seen DONE = 1 (log entry 8); an IN write followed by a read of the same place returns the value, cut to the access's
width (20_memory.md rules R61, R63, R65). -/
def Obligations.WindowWriteThenRead : Prop :=
  ∀ (s : State) (a : Word) (width : Width), s.params.wf = true → a.toNat % widthBytes width = 0 →
    (0x01000000 ≤ a.toNat → a.toNat + widthBytes width ≤ 0x01000000 + s.params.inCap →
      (∃ t x, hostAccess (.read a width) s = .next t ∧ t.busData = some x ∧
        x.toNat = littleEndian s a.toNat (widthBytes width)) ∧
      (∀ v, s.phase = .idle →
        ∃ t u, hostAccess (.write a width v) s = .next t ∧ hostAccess (.read a width) t = .next u ∧
          u.busData = some (BitVec.ofNat 32 (v.toNat % 256 ^ widthBytes width)))) ∧
    (0x02000000 ≤ a.toNat → a.toNat + widthBytes width ≤ 0x02000000 + s.params.outCap → s.outputsSettled = true →
      s.phase = .idle →
      ∃ t x, hostAccess (.read a width) s = .next t ∧ t.busData = some x ∧
        x.toNat = littleEndian s a.toNat (widthBytes width))

/-- While BUSY the DISCONNECT word aborts a command that waits on the link: one step, one completion with 0x54, LINK = 0,
RXBUF and ACC empty, the transport closed, CURCMD kept, and of a write cut short the peer has some prefix; during any other
command it is refused (43_link_control.md rule R222). That TXLOG stays when the transport closes, and what the peer has
received is a state of its own, is the model's reading (log entry 14); that a write already answered is no longer cut short is
the model's choice (log entry 10). -/
def Obligations.DisconnectWordAborts : Prop :=
  ∀ s : State, s.phase ≠ .idle →
    (AbortableWord s.curCmd →
      ∃ t, hostAccess (.write 0 .w32 0x00000011) s = .next t ∧ Failed t 0x54 0 ∧ t.link = false ∧ t.rxBuf = [] ∧ t.acc = [] ∧ t.transportOpen = false ∧
        (s.transportOpen = true → t.rxStream = []) ∧ t.curCmd = s.curCmd ∧ t.ackMode = s.ackMode ∧ t.txLog = s.txLog ∧
        t.arg = s.arg ∧ t.inLen = s.inLen ∧ (∀ a, a < outBase → t.byteAt a = s.byteAt a) ∧
        (∀ packet pt, s.phase = .sending packet pt none → ∃ k, t.peerGot = s.peerGot ++ packet.take k) ∧
        ((∀ packet pt, s.phase ≠ .sending packet pt none) → t.peerGot = s.peerGot)) ∧
    (¬ AbortableWord s.curCmd → hostAccess (.write 0 .w32 0x00000011) s = .refused .busyWrite)

/-- The operand of a command is IN[0:IN_LEN): its k-th byte is the byte at host offset 0x0100_0000 + k (30_encoding.md rule
R82; 20_memory.md rules R61, R64). -/
def Obligations.OperandIsTheInBuffer : Prop :=
  ∀ (s : State) (k : Nat),
    (inBytes s)[k]? = if k < s.inLen.toNat then some (s.byteAt (0x01000000 + k)) else none

/-! ## Codec commands -/

/-- ENCODE_PAYLOAD (41_codec.md rules R140, R150): every byte of the escaped set becomes two bytes, every other byte stays. -/
def Obligations.EncodePayloadResult : Prop :=
  ∀ s : State, s.params.wf = true →
    ∃ t, exec .encodePayload s = .next t ∧
      (¬ InLenOk s → Failed t 0x61 0) ∧
      (InLenOk s → ((inBytes s).flatMap escaped).length ≤ s.params.outCap →
        Completed t ((inBytes s).flatMap escaped) 0 ∧ SameOutsideOut s t t.outLen.toNat) ∧
      (InLenOk s → s.params.outCap < ((inBytes s).flatMap escaped).length → Failed t 0x62 0)

/-- DECODE_PAYLOAD (41_codec.md rules R141, R151): a sequence of tokens is expanded; a malformed one fails with the code of
its first bad token. -/
def Obligations.DecodePayloadResult : Prop :=
  ∀ s : State, s.params.wf = true →
    ∃ t, exec .decodePayload s = .next t ∧
      (¬ InLenOk s → Failed t 0x61 0) ∧
      (InLenOk s →
        (∀ out, Decodes (inBytes s) out → out.length ≤ s.params.outCap →
          Completed t out 0 ∧ SameOutsideOut s t out.length) ∧
        (∀ out, Decodes (inBytes s) out → s.params.outCap < out.length → Failed t 0x62 0) ∧
        (∀ code, Malformed (inBytes s) code → Failed t code 0))

/-- The block's Decode gives exactly the meaning of a token sequence, and exactly the code of a first malformed token
(41_codec.md rule R141). So every encoded payload either is a sequence of tokens, of one meaning, or has a first malformed
token, of one code: the cases of 30_encoding.md rule R91 leave nothing out and never overlap. -/
def Obligations.TokensCoverEveryPayload : Prop :=
  ∀ e : Bytes,
    (∀ out, decodeBytesOf e = .ok out ↔ Decodes e out) ∧
    (∀ code, (∃ k, decodeBytesOf e = .error k ∧ k.code = code) ↔ Malformed e code) ∧
    ((∃ out, Decodes e out) ∨ (∃ code, Malformed e code)) ∧
    (∀ out code, Decodes e out → ¬ Malformed e code) ∧
    (∀ out out', Decodes e out → Decodes e out' → out = out') ∧
    (∀ code code', Malformed e code → Malformed e code' → code = code')

/-- COMPUTE_CHECKSUM (41_codec.md rules R143, R152): OUT is two lowercase hex digits, the high one first, of the byte sum
mod 256. -/
def Obligations.ComputeChecksumResult : Prop :=
  ∀ s : State, s.params.wf = true →
    ∃ t hi lo, exec .computeChecksum s = .next t ∧ IsChecksum (inBytes s) hi lo ∧
      (¬ InLenOk s → Failed t 0x61 0) ∧ (InLenOk s → Completed t [hi, lo] 0 ∧ SameOutsideOut s t 2)

/-- CREATE_PACKET (41_codec.md rules R145, R153), in both forms: the computed checksum, a custom one sent as given, and a bad
custom one, which fails with 0x43. -/
def Obligations.CreatePacketResult : Prop :=
  ∀ s : State, s.params.wf = true →
    let e := (inBytes s).flatMap escaped
    (∃ t hi lo, exec (.createPacket false) s = .next t ∧ IsChecksum e hi lo ∧
      (¬ InLenOk s → Failed t 0x61 0) ∧
      (InLenOk s → e.length + 4 ≤ s.params.outCap →
        Completed t (0x24 :: e ++ [0x23, hi, lo]) 0 ∧ SameOutsideOut s t (e.length + 4)) ∧
      (InLenOk s → s.params.outCap < e.length + 4 → Failed t 0x62 0)) ∧
    (∃ t, exec (.createPacket true) s = .next t ∧
      (¬ InLenOk s → Failed t 0x61 0) ∧
      (InLenOk s → ArgIsChecksum s → e.length + 4 ≤ s.params.outCap →
        Completed t (0x24 :: e ++ [0x23, s.arg.extractLsb' 0 8, s.arg.extractLsb' 8 8]) 0 ∧
          SameOutsideOut s t (e.length + 4)) ∧
      (InLenOk s → ArgIsChecksum s → s.params.outCap < e.length + 4 → Failed t 0x62 0) ∧
      (InLenOk s → ¬ ArgIsChecksum s → Failed t 0x43 0))

/-- SPLIT_PACKET (41_codec.md rules R146, R154): the payload goes to OUT, the first byte, the hash byte and the checksum bytes
to RESULT, nothing being checked; fewer than four bytes fail with 0x45. -/
def Obligations.SplitPacketResult : Prop :=
  ∀ s : State, s.params.wf = true →
    ∃ t, exec .splitPacket s = .next t ∧
      (¬ InLenOk s → Failed t 0x61 0) ∧
      (InLenOk s → s.inLen.toNat < 4 → Failed t 0x45 0) ∧
      (InLenOk s → ∀ first payload hash c0 c1, inBytes s = first :: payload ++ [hash, c0, c1] →
        (payload.length ≤ s.params.outCap →
          Completed t payload (BitVec.ofNat 32
              (first.toNat + 2 ^ 8 * hash.toNat + 2 ^ 16 * c0.toNat + 2 ^ 24 * c1.toNat)) ∧
            SameOutsideOut s t payload.length) ∧
        (s.params.outCap < payload.length → Failed t 0x62 0))

/-- VALIDATE_PACKET (41_codec.md rules R147, R155): the first failing check in the rule's order decides the error. -/
def Obligations.ValidatePacketResult : Prop :=
  ∀ s : State, s.params.wf = true →
    ∃ t, exec .validatePacket s = .next t ∧
      (¬ InLenOk s → Failed t 0x61 0) ∧
      (InLenOk s → s.inLen.toNat < 4 → Failed t 0x15 0) ∧
      (InLenOk s → ∀ first payload hash c0 c1, inBytes s = first :: payload ++ [hash, c0, c1] →
        (first ≠ 0x24 → Failed t 0x16 0) ∧
        (first = 0x24 → hash ≠ 0x23 → Failed t 0x17 0) ∧
        (first = 0x24 → hash = 0x23 → (0x24 ∈ payload ∨ 0x23 ∈ payload) → Failed t 0x18 0) ∧
        (first = 0x24 → hash = 0x23 → 0x24 ∉ payload → 0x23 ∉ payload →
          ((¬ ((∃ v, DigitOf s.params.hexCase v c0) ∧ (∃ v, DigitOf s.params.hexCase v c1)) → Failed t 0x19 0) ∧
           ((∃ v, DigitOf s.params.hexCase v c0) → (∃ v, DigitOf s.params.hexCase v c1) →
             (¬ AcceptedChecksum s.params.hexCase payload c0 c1 → Failed t 0x1A 0) ∧
             (AcceptedChecksum s.params.hexCase payload c0 c1 → Completed t [] 0 ∧ SameOutsideOut s t 0)))))

/-- A command that reads IN fails with 0x61 before every other check when IN_LEN > IN_CAP (40_command_cycle.md rule R122;
30_encoding.md rule R82). That a Fail leaves ACC as it was, empty in every reachable state here, is the model's reading (log
entry 11). -/
def Obligations.InLenCheckedFirst : Prop :=
  ∀ (s : State) (i : Instr), s.phase = .start → ¬ InLenOk s →
    (i = .encodePayload ∨ i = .decodePayload ∨ i = .computeChecksum ∨ (∃ ck, i = .createPacket ck) ∨ i = .splitPacket ∨
      i = .validatePacket ∨ (∃ ck chk, i = .sendPacket ck chk)) →
    ∃ t, exec i s = .next t ∧ Failed t 0x61 0 ∧ SameFixed s t ∧ SameLinkSide s t ∧ SameTransport s t

/-- Codec commands are pure (40_command_cycle.md rule R128): they answer in every state, change only OUT, OUT_LEN, RESULT and
STATUS (ARMED, 0 since no window is armed at their start, is left 0), and two states that agree on the parameters, IN_LEN,
IN and ARG give the same result, whatever LINK, ACK_MODE, RXBUF, ACC, the deadline and the transport are. -/
def Obligations.CodecCommandsArePure : Prop :=
  ∀ i : Instr,
    (i = .encodePayload ∨ i = .decodePayload ∨ i = .computeChecksum ∨ (∃ ck, i = .createPacket ck) ∨ i = .splitPacket ∨
      i = .validatePacket) →
    (∀ s : State, ∃ t, exec i s = .next t ∧ SameFixed s t ∧ SameLinkSide s t ∧ SameTransport s t ∧
      (s.armed = false → t.armed = false)) ∧
    (∀ s s' t t' : State, s.params = s'.params → s.params.wf = true → s.inLen = s'.inLen → inBytes s = inBytes s' →
      s.arg = s'.arg → exec i s = .next t → exec i s' = .next t' →
      t.outLen = t'.outLen ∧ t.outBytes = t'.outBytes ∧ t.result = t'.result ∧ t.done = t'.done ∧ t.err = t'.err ∧
        t.errCode = t'.errCode ∧ t.busy = t'.busy)

/-! ## Laws of the codec -/

/-- Round trip (41_codec.md rule R160). -/
def Obligations.DecodeEncodeRoundTrip : Prop :=
  ∀ d : Bytes, decodeBytesOf (encodeBytesOf d) = .ok d ↔ StarsFollowEscaped d

/-- Encode's output (41_codec.md rule R161). -/
def Obligations.EncodeOutputShape : Prop :=
  ∀ d : Bytes,
    (encodeBytesOf d).length = d.length + d.countP (fun b => b == 0x7D || b == 0x24 || b == 0x23) ∧
    0x24 ∉ encodeBytesOf d ∧ 0x23 ∉ encodeBytesOf d ∧
    ∀ k : Nat, (encodeBytesOf d)[k]? = some (0x7D : Byte) →
      (encodeBytesOf d)[k + 1]? = some (0x5D : Byte) ∨ (encodeBytesOf d)[k + 1]? = some (0x04 : Byte) ∨
        (encodeBytesOf d)[k + 1]? = some (0x03 : Byte)

/-- Decode's output length (41_codec.md rule R162). -/
def Obligations.DecodeOutputLength : Prop :=
  ∀ e out : Bytes, decodeBytesOf e = .ok out →
    out.length ≤ 98 * ((e.length + 2) / 3) ∧ (e.length + 1) / 2 ≤ out.length

/-- Checksum's output (41_codec.md rule R163): two lowercase digits, `00` for the empty sequence, unchanged by reordering. -/
def Obligations.ChecksumOutput : Prop :=
  (∀ e : Bytes, ∃ hi lo, checksum e = [hi, lo] ∧ (∃ v, LowerDigit v hi) ∧ (∃ v, LowerDigit v lo)) ∧
  checksum [] = [0x30, 0x30] ∧ (∀ e e' : Bytes, sumMod256 e = sumMod256 e' → checksum e = checksum e') ∧
  (∀ e e' : Bytes, e.Perm e' → checksum e = checksum e')

/-- Frames the block builds are valid (41_codec.md rule R164). -/
def Obligations.BuiltFramesValidate : Prop :=
  ∀ (policy : HexCasePolicy) (d : Bytes),
    (∃ body c0 c1, createPacketOf policy d none = .ok (0x24 :: body ++ [0x23, c0, c1]) ∧
      validateOf policy (0x24 :: body ++ [0x23, c0, c1]) = none ∧ 0x24 ∉ body ∧ 0x23 ∉ body ∧
      (∃ v, LowerDigit v c0) ∧ (∃ v, LowerDigit v c1)) ∧
    (∀ ck, ckSyntaxOk policy ck = true → ∃ p, createPacketOf policy d (some ck) = .ok p ∧
      validateOf policy p = if ckEqual policy ck (encodeBytesOf d) then none else some .pktCkMismatch)

/-! ## Link control -/

/-- CONNECT (43_link_control.md rule R220): at its start with LINK = 1 and with LINK = 0, in the open's wait, which only
Opened or OpenFailed ends (40_command_cycle.md rule R127), and after it. Opened gives empty sequences, OpenFailed changes
nothing (42_rx_path.md rule R200); that Opened also opens the transport, with the peer's side open and nothing received, is
the model's reading (log entries 14, 17, 21). That an event and the block's going on are two steps, with the answer in PHASE
between them, is the model's choice (log entry 10). That a Fail leaves ACC as it was, empty in every reachable state here, is
the model's reading (log entry 11). -/
def Obligations.ConnectResult : Prop :=
  ∀ s : State, s.params.wf = true →
    (s.phase = .start → s.link = true →
      ∃ t, exec .connect s = .next t ∧ Failed t 0x41 0 ∧ SameLinkSide s t ∧ SameTransport s t ∧ SameFixed s t) ∧
    (s.phase = .start → s.link = false → exec .connect s = .next { s with phase := .opening none }) ∧
    (s.phase = .opening none →
      exec .connect s = .next s ∧
      takeEvent .opened s =
        .next { s with
          phase := .opening (some .opened), rxStream := [], txLog := [], transportOpen := true, peerClosed := false,
          peerGot := [] } ∧
      takeEvent .openFailed s = .next { s with phase := .opening (some .failed) }) ∧
    (s.phase = .opening (some .failed) →
      ∃ t, exec .connect s = .next t ∧ Failed t 0x51 0 ∧ SameLinkSide s t ∧ SameTransport s t ∧ SameFixed s t) ∧
    (s.phase = .opening (some .opened) →
      ∃ t, exec .connect s = .next t ∧ Completed t [] 0 ∧ t.link = true ∧ t.ackMode = true ∧ t.rxBuf = [] ∧
        t.acc = s.acc ∧ t.tArm = s.tArm ∧ SameTransport s t ∧ SameFixed s t ∧ SameOutsideOut s t 0)

/-- A CONNECT that the transport opens, from its start to its end in three turns: LINK = 1, ACK_MODE = 1, RXBUF, RXSTREAM and
TXLOG empty (43_link_control.md rule R220; 42_rx_path.md rule R200). That an event and the block's going on are two steps,
with the answer in PHASE between them, is the model's choice (log entry 10). The turns are the model's agenda (log entry 1).
-/
def Obligations.ConnectRunsToCompletion : Prop :=
  ∀ s : State, s.params.wf = true → s.phase = .start → s.curCmd = 0x10 → s.link = false →
    s.agenda = [.block, .event .opened, .block] →
    ∃ t, core.run 3 s = .next t ∧ Completed t [] 0 ∧ t.link = true ∧ t.ackMode = true ∧ t.rxBuf = [] ∧ t.rxStream = [] ∧
      t.txLog = [] ∧ t.transportOpen = true

/-- DISCONNECT (43_link_control.md rule R221), with LINK = 1 and with LINK = 0: it never fails, and with no link (RXBUF empty,
as rule R220 says it then is) it changes nothing. That TXLOG, and with it what the peer has received, stays when the transport
closes is the model's reading (log entry 14). -/
def Obligations.DisconnectResult : Prop :=
  ∀ s : State, s.params.wf = true →
    ∃ t, exec .disconnect s = .next t ∧ Completed t [] 0 ∧ t.link = false ∧ t.rxBuf = [] ∧ t.ackMode = s.ackMode ∧
      t.acc = s.acc ∧ t.tArm = s.tArm ∧ t.txLog = s.txLog ∧ t.peerGot = s.peerGot ∧ SameFixed s t ∧
      SameOutsideOut s t 0 ∧
      (s.link = true → t.transportOpen = false ∧ t.rxStream = []) ∧ (s.link = false → SameTransport s t) ∧
      (s.link = false → s.rxBuf = [] → SameLinkSide s t)

/-- SET_ACK_MODE (43_link_control.md rule R223), both forms, in either link state. -/
def Obligations.SetAckModeResult : Prop :=
  ∀ (s : State) (enable : Bool), s.params.wf = true →
    ∃ t, exec (.setAckMode enable) s = .next t ∧ Completed t [] 0 ∧ t.ackMode = enable ∧ t.link = s.link ∧
      t.rxBuf = s.rxBuf ∧ t.acc = s.acc ∧ t.tArm = s.tArm ∧ SameTransport s t ∧ SameFixed s t ∧ SameOutsideOut s t 0

/-- Every command that needs the link fails with 0x42 when LINK = 0, sending and reading nothing (43_link_control.md rule
R224; 60_exceptions.md rule R281). SEND_PACKET's earlier checks are assumed passed; SendPacketStart has their order. That a
Fail leaves ACC as it was, empty in every reachable state here, is the model's reading (log entry 11). -/
def Obligations.NotConnectedFails : Prop :=
  ∀ (s : State) (i : Instr), s.phase = .start → s.link = false →
    (i = .checkAck ∨ i = .sendAck ∨ i = .sendNack ∨ i = .sendInterrupt ∨ (∃ v, i = .recvPacket v) ∨ i = .recvAndDecode ∨
      (InLenOk s ∧ ∃ chk, i = .sendPacket false chk) ∨ (InLenOk s ∧ ArgIsChecksum s ∧ ∃ chk, i = .sendPacket true chk)) →
    ∃ t, exec i s = .next t ∧ Failed t 0x42 0 ∧ SameFixed s t ∧ SameLinkSide s t ∧ SameTransport s t

/-! ## Transmit and acknowledge -/

/-- SEND_PACKET up to its write (44_packet_exchange.md rule R240; 60_exceptions.md rule R284): 0x61, then 0x43, then 0x42,
then one write of the whole frame. That a Fail leaves ACC as it was, empty in every reachable state here, is the model's
reading (log entry 11). -/
def Obligations.SendPacketStart : Prop :=
  ∀ (s : State) (ck chk : Bool), s.phase = .start →
    let e := (inBytes s).flatMap escaped
    ∃ t, exec (.sendPacket ck chk) s = .next t ∧ SameFixed s t ∧ SameLinkSide s t ∧ SameTransport s t ∧
      (¬ InLenOk s → Failed t 0x61 0) ∧
      (InLenOk s → ck = true → ¬ ArgIsChecksum s → Failed t 0x43 0) ∧
      (InLenOk s → (ck = true → ArgIsChecksum s) → s.link = false → Failed t 0x42 0) ∧
      (InLenOk s → (ck = true → ArgIsChecksum s) → s.link = true →
        (ck = true →
          let packet := 0x24 :: e ++ [0x23, s.arg.extractLsb' 0 8, s.arg.extractLsb' 8 8]
          t = { s with phase := .sending packet .command none }) ∧
        (ck = false → ∃ hi lo, IsChecksum e hi lo ∧
          t = { s with phase := .sending (0x24 :: e ++ [0x23, hi, lo]) .command none }))

/-- SEND_PACKET after its write (44_packet_exchange.md rules R240, R241): 0x52 when the write failed; completion with nothing
read when CHECK_ACK = 0 or ACK_MODE = 0; else the ACK wait, armed now, whose byte comes from RXBUF or after a refill. In
either wait a step changes nothing until the environment has answered (40_command_cycle.md rule R127). That an event and the
block's going on are two steps, with the answer in PHASE between them, is the model's choice (log entry 10). That a Fail
leaves ACC as it was, empty in every reachable state here, is the model's reading (log entry 11). -/
def Obligations.SendPacketAfterWrite : Prop :=
  ∀ (s : State) (ck chk : Bool) (packet : Bytes), s.params.wf = true →
    ((s.phase = .sending packet .command none ∨ ∃ t0 w, s.phase = .refilling .ack t0 w none) →
      exec (.sendPacket ck chk) s = .next s) ∧
    (s.phase = .sending packet .command (some .failed) →
      ∃ t, exec (.sendPacket ck chk) s = .next t ∧ Failed t 0x52 0 ∧ SameFixed s t ∧ SameLinkSide s t ∧
        SameTransport s t) ∧
    (s.phase = .sending packet .command (some .done) → (chk = false ∨ s.ackMode = false) →
      ∃ t, exec (.sendPacket ck chk) s = .next t ∧ Completed t [] 0 ∧ SameFixed s t ∧ SameLinkSide s t ∧
        SameTransport s t ∧ SameOutsideOut s t 0) ∧
    (s.phase = .sending packet .command (some .done) → chk = true → s.ackMode = true →
      ∃ t, exec (.sendPacket ck chk) s = .next t ∧ t.tArm = s.now ∧ t.link = s.link ∧ t.ackMode = true ∧
        t.acc = s.acc ∧ SameFixed s t ∧ SameTransport s t ∧
        (∀ b rest, s.rxBuf = b :: rest → AckEnds s t b rest) ∧
        (s.rxBuf = [] → 0 < s.cfgTimeout.toNat →
          t.armed = true ∧ t.rxBuf = [] ∧ WaitsAt t .ack (s.cfgTimeout.toNat : Int) ∧ SameOutputs s t)) ∧
    (∀ t0 w b rest, s.phase = .refilling .ack t0 w (some .data) → s.rxBuf = b :: rest →
      ∃ t, exec (.sendPacket ck chk) s = .next t ∧ AckEnds s t b rest ∧ t.tArm = s.tArm ∧ t.link = s.link ∧
        t.ackMode = s.ackMode ∧ t.acc = s.acc ∧ SameFixed s t ∧ SameTransport s t)

/-- SEND_PACKET with no ACK wait, from its start to its end in three turns, with the computed checksum and with a custom one:
the frame is one entry of TXLOG, RXBUF and the deadline are not touched (44_packet_exchange.md rule R240; 42_rx_path.md rule
R198). That an event and the block's going on are two steps, with the answer in PHASE between them, is the model's choice (log
entry 10). What the peer has received is a state of its own by the model's reading (log entry 14). The turns are the model's
agenda (log entry 1). -/
def Obligations.SendPacketRunsToCompletion : Prop :=
  ∀ (s : State), s.params.wf = true → s.phase = .start → InLenOk s → s.link = true →
    s.agenda = [.block, .event .txDone, .block] →
    let frame := fun hi lo => 0x24 :: (inBytes s).flatMap escaped ++ [0x23, hi, lo]
    let sent := fun packet => ∃ t, core.run 3 s = .next t ∧ Completed t [] 0 ∧ t.txLog = s.txLog ++ [packet] ∧
      t.peerGot = s.peerGot ++ packet ∧ SameLinkSide s t ∧ t.rxStream = s.rxStream
    (s.curCmd = 0x20 ∨ (s.curCmd = 0x220 ∧ s.ackMode = false) →
      ∃ hi lo, IsChecksum ((inBytes s).flatMap escaped) hi lo ∧ sent (frame hi lo)) ∧
    (s.curCmd = 0x120 ∨ (s.curCmd = 0x320 ∧ s.ackMode = false) → ArgIsChecksum s →
      sent (frame (s.arg.extractLsb' 0 8) (s.arg.extractLsb' 8 8)))

/-- CHECK_ACK (44_packet_exchange.md rules R241, R242): with LINK = 1 it arms the window and reads one byte, from RXBUF with
no time check or after a refill, whatever ACK_MODE is. In the refill's wait a step changes nothing until the environment has
answered (40_command_cycle.md rule R127). That an event and the block's going on are two steps, with the answer in PHASE
between them, is the model's choice (log entry 10). That a Fail leaves ACC as it was, empty in every reachable state here, is
the model's reading (log entry 11). -/
def Obligations.CheckAckResult : Prop :=
  ∀ s : State, s.params.wf = true →
    (∀ t0 w, s.phase = .refilling .ack t0 w none → exec .checkAck s = .next s) ∧
    (s.phase = .start → s.link = false → ∃ t, exec .checkAck s = .next t ∧ Failed t 0x42 0) ∧
    (s.phase = .start → s.link = true →
      ∃ t, exec .checkAck s = .next t ∧ t.tArm = s.now ∧ t.link = true ∧ t.ackMode = s.ackMode ∧ t.acc = s.acc ∧
        SameFixed s t ∧ SameTransport s t ∧
        (∀ b rest, s.rxBuf = b :: rest → AckEnds s t b rest) ∧
        (s.rxBuf = [] → 0 < s.cfgTimeout.toNat →
          t.armed = true ∧ t.rxBuf = [] ∧ WaitsAt t .ack (s.cfgTimeout.toNat : Int) ∧ SameOutputs s t)) ∧
    (∀ t0 w b rest, s.phase = .refilling .ack t0 w (some .data) → s.rxBuf = b :: rest →
      ∃ t, exec .checkAck s = .next t ∧ AckEnds s t b rest ∧ t.tArm = s.tArm ∧ t.link = s.link ∧ t.ackMode = s.ackMode ∧
        t.acc = s.acc ∧ SameFixed s t ∧ SameTransport s t)

/-- SEND_ACK, SEND_NACK and SEND_INTERRUPT (44_packet_exchange.md rules R243 to R245): one one-byte write of `+`, `-` or 0x03,
whatever ACK_MODE is, and nothing read. In the write's wait a step changes nothing until the environment has answered
(40_command_cycle.md rule R127). That an event and the block's going on are two steps, with the answer in PHASE between them,
is the model's choice (log entry 10). That a Fail leaves ACC as it was, empty in every reachable state here, is the model's
reading (log entry 11). -/
def Obligations.SingleByteSends : Prop :=
  ∀ (s : State) (i : Instr) (b : Byte), s.params.wf = true →
    ((i = .sendAck ∧ b = 0x2B) ∨ (i = .sendNack ∧ b = 0x2D) ∨ (i = .sendInterrupt ∧ b = 0x03)) →
    (s.phase = .start → s.link = false →
      ∃ t, exec i s = .next t ∧ Failed t 0x42 0 ∧ SameFixed s t ∧ SameLinkSide s t ∧ SameTransport s t) ∧
    (s.phase = .start → s.link = true → exec i s = .next { s with phase := .sending [b] .command none }) ∧
    (s.phase = .sending [b] .command none → exec i s = .next s) ∧
    (s.phase = .sending [b] .command (some .failed) →
      ∃ t, exec i s = .next t ∧ Failed t 0x52 0 ∧ SameFixed s t ∧ SameLinkSide s t ∧ SameTransport s t) ∧
    (s.phase = .sending [b] .command (some .done) →
      ∃ t, exec i s = .next t ∧ Completed t [] 0 ∧ SameFixed s t ∧ SameLinkSide s t ∧ SameTransport s t ∧
        SameOutsideOut s t 0)

/-- SEND_ACK, SEND_NACK and SEND_INTERRUPT from their start to their end in three turns: TXLOG gains the one byte
(44_packet_exchange.md rules R243 to R245; 42_rx_path.md rule R198). That an event and the block's going on are two steps,
with the answer in PHASE between them, is the model's choice (log entry 10). What the peer has received is a state of its own
by the model's reading (log entry 14). The turns are the model's agenda (log entry 1). -/
def Obligations.SingleByteSendsRunToCompletion : Prop :=
  ∀ (s : State) (b : Byte), s.params.wf = true → s.phase = .start → s.link = true →
    ((s.curCmd = 0x22 ∧ b = 0x2B) ∨ (s.curCmd = 0x23 ∧ b = 0x2D) ∨ (s.curCmd = 0x24 ∧ b = 0x03)) →
    s.agenda = [.block, .event .txDone, .block] →
    ∃ t, core.run 3 s = .next t ∧ Completed t [] 0 ∧ t.txLog = s.txLog ++ [[b]] ∧ t.peerGot = s.peerGot ++ [b] ∧
      SameLinkSide s t ∧ t.rxStream = s.rxStream ∧ ∀ a, t.byteAt a = s.byteAt a

/-- The events of a transmit (42_rx_path.md rule R198; 20_memory.md rule R71): an accepted write is one entry of TXLOG and
reaches the peer whole; of a failed one the peer has a prefix and TXLOG gains nothing. No time enters. A length beyond the
write names no prefix, and the model refuses it (log entry 9). These, and the events of an open and of a refill too, happen
only in the wait that rule R204 of 42_rx_path.md lists them for: in no other wait, in none that has been answered, and in none
of idle, dispatch and a command's start. That TxDone and TxFail change only TXLOG and what the peer has received and record
their answer in PHASE, while rule R198's Fail and return come at the block's next step, is the model's choice (log entry 10);
what the peer has received is a state of its own by the model's reading (log entry 14). -/
def Obligations.TransmitEvents : Prop :=
  (∀ (s : State) (packet : Bytes) (pt : TxPoint), s.phase = .sending packet pt none →
    takeEvent .txDone s =
      .next { s with
        phase := .sending packet pt (some .done), txLog := s.txLog ++ [packet], peerGot := s.peerGot ++ packet } ∧
    (∀ n, n ≤ packet.length →
      takeEvent (.txFail n) s =
        .next { s with phase := .sending packet pt (some .failed), peerGot := s.peerGot ++ packet.take n }) ∧
    (∀ n, packet.length < n → takeEvent (.txFail n) s = .refused .eventNotEnabled)) ∧
  (∀ (s t : State) (e : Event), takeEvent e s = .next t → EndsTheWait s.phase e)

/-! ## The receive path -/

/-- The wait bound (42_rx_path.md rules R192, R193) and Refill up to its wait (rule R195): 0x31 at once when no time remains,
else a wait of the remaining time, rounded up to one unit. -/
def Obligations.RefillBound : Prop :=
  ∀ (s : State) (pt : ReadPoint),
    let r := (s.cfgTimeout.toNat : Int) - (s.now - s.tArm)
    (r ≤ 0 → Failed (refill pt s) 0x31 0) ∧
    (0 < r → r < (s.params.ticksPerUnit : Int) →
      refill pt s = { s with phase := .refilling pt s.now (s.params.ticksPerUnit : Int) none }) ∧
    (0 < r → (s.params.ticksPerUnit : Int) ≤ r → refill pt s = { s with phase := .refilling pt s.now r none })

/-- Which events can end a refill, when, and what they do to RXSTREAM and RXBUF (42_rx_path.md rules R191, R195). That a
chunk's bytes move at the event's step, and every other event only records its answer in PHASE, while rule R195's Fail comes
at the block's next step, is the model's choice (log entry 10); that an event's time is `now` at its turn is the model's
reading (log entry 22). -/
def Obligations.RefillEvents : Prop :=
  ∀ (s : State) (pt : ReadPoint) (t0 w : Int), s.phase = .refilling pt t0 w none →
    (∀ n t, takeEvent (.chunk n) s = .next t ↔
      (1 ≤ n ∧ n ≤ s.params.rxChunkMax ∧ n ≤ s.rxStream.length ∧ t0 ≤ s.now ∧ s.now ≤ t0 + w) ∧
        t = { s with
          phase := .refilling pt t0 w (some .data), rxBuf := s.rxBuf ++ s.rxStream.take n,
          rxStream := s.rxStream.drop n }) ∧
    (∀ t, takeEvent .expire s = .next t ↔
      t0 + w ≤ s.now ∧ t = { s with phase := .refilling pt t0 w (some .expired) }) ∧
    takeEvent .rxError s = .next { s with phase := .refilling pt t0 w (some .error) } ∧
    (∀ t, takeEvent .endOfStream s = .next t ↔
      s.peerClosed = true ∧ s.rxStream = [] ∧ t = { s with phase := .refilling pt t0 w (some .endOfStream) }) ∧
    (∀ t, takeEvent .opened s ≠ .next t ∧ takeEvent .openFailed s ≠ .next t ∧ takeEvent .txDone s ≠ .next t ∧
      ∀ n, takeEvent (.txFail n) s ≠ .next t)

/-- How a refill that brought no bytes ends its command (42_rx_path.md rules R195, R196; 44_packet_exchange.md rules R241,
R252), for every command that reads: 0x32 on expiry, 0x52 on a transport error, and at the end of the stream 0x53, or 0x31
once no time remains, as EOF_POLICY says. LINK stays. With no answer yet the step changes nothing (40_command_cycle.md rule
R127). That the event and this end are two steps, with the answer in PHASE between them, is the model's choice (log entry 10),
and so is RXBUF after a failed scan as a free value (log entry 7); that the wait goes on after an end of the stream until no
time remains is its reading (log entry 12), and that ACC is empty then too (log entry 11). -/
def Obligations.FailedRefillEndsTheCommand : Prop :=
  ∀ (s : State) (i : Instr) (pt : ReadPoint) (t0 w : Int),
    ((pt = .ack ∧ (i = .checkAck ∨ ∃ ck chk, i = .sendPacket ck chk)) ∨
      ((∃ p, pt = .scan p) ∧ (i = .recvAndDecode ∨ ∃ v, i = .recvPacket v))) →
    (s.phase = .refilling pt t0 w none → exec i s = .next s) ∧
    (∀ answer, s.phase = .refilling pt t0 w (some answer) → ∃ t, exec i s = .next t ∧
      (answer = .expired → Failed t 0x32 0) ∧ (answer = .error → Failed t 0x52 0) ∧
      (answer = .endOfStream → s.params.eof = .transportError → Failed t 0x53 0) ∧
      (answer = .endOfStream → s.params.eof = .timeoutAtDeadline →
        (s.tArm + (s.cfgTimeout.toNat : Int) ≤ s.now → Failed t 0x31 0) ∧
        (s.now < s.tArm + (s.cfgTimeout.toNat : Int) → t = s)) ∧
      (answer ≠ .data → t.link = s.link ∧ t.ackMode = s.ackMode ∧ SameFixed s t ∧ SameTransport s t ∧
        (pt = .ack → t.rxBuf = s.rxBuf) ∧ (t.err = true → s.phase ≠ t.phase → pt ≠ .ack → t.acc = []) ∧
        (s.rxBuf.length ≤ s.params.rxChunkMax → t.rxBuf.length ≤ s.params.rxChunkMax)))

/-- A chunk never arrives one unit or more past the deadline, nor past it at all when a unit remained at the refill's start
(42_rx_path.md rule R203). That a chunk's time is `now` at its turn is the model's reading (log entry 22). -/
def Obligations.ChunkOverrunBound : Prop :=
  ∀ (s t : State) (n : Nat), StateInv s → takeEvent (.chunk n) s = .next t →
    t.now < t.tArm + (t.cfgTimeout.toNat : Int) + (t.params.ticksPerUnit : Int) ∧
    (∀ pt t0 w, s.phase = .refilling pt t0 w none →
      (s.params.ticksPerUnit : Int) ≤ (s.cfgTimeout.toNat : Int) - (t0 - s.tArm) →
      t.now ≤ t.tArm + (t.cfgTimeout.toNat : Int))

/-- The frame scan over the bytes at hand (44_packet_exchange.md rules R246, R263), from its start (`sop` with ACC empty) and
from every point a refill has left it at: it returns p and leaves rest exactly when the bytes it has taken and those at hand
are p then rest and p is a `$`, a body without `#` and within MAX_PACKET_LEN, `#` and two bytes; another first byte is a bad
start; it is oversized exactly when MAX_PACKET_LEN bytes from a `$` hold no `#`; else it stands at the point where its bytes
end. -/
def Obligations.ScanTakesExactlyTheFrames : Prop :=
  ∀ (max : Nat) (buf : Bytes) (pt : ScanPoint) (acc : Bytes), 2 ≤ max → ScanOk max acc pt →
    (∀ p rest, scan max buf pt acc = .frame p rest ↔ (taken acc pt ++ buf = p ++ rest ∧ FrameShape max p)) ∧
    (∀ b, scan max buf pt acc = .badSop b ↔ (taken acc pt = [] ∧ b ≠ 0x24 ∧ ∃ rest, buf = b :: rest)) ∧
    (scan max buf pt acc = .oversized ↔
      ∃ body rest, taken acc pt ++ buf = 0x24 :: body ++ rest ∧ 0x23 ∉ body ∧ body.length + 1 = max) ∧
    (∀ pt' acc', scan max buf pt acc = .more pt' acc' ↔
      (taken acc pt ++ buf = taken acc' pt' ∧ ScanOk max acc' pt'))

/-- RECV_PACKET with a whole frame at hand, at its start or after a chunk (44_packet_exchange.md rules R250, R253;
42_rx_path.md rule R202): it is received with no time check. Without validation it is the result and nothing is sent; with it,
a bad frame fails with the code of VALIDATE_PACKET and nothing is sent, a good one is the result at once when ACK_MODE = 0 and
after the `+` write otherwise. The bytes after the frame stay in RXBUF. With only a part of a frame at hand it waits for more.
In the scan's refill and in the `+` write a step changes nothing until the environment has answered (40_command_cycle.md rule
R127). That ACC is empty after the frame is the model's reading (log entry 11). That an event and the block's going on are two
steps, with the answer in PHASE between them, is the model's choice (log entry 10). -/
def Obligations.RecvPacketResult : Prop :=
  ∀ s : State, s.params.wf = true →
    (∀ held p rest, ScansAfter s held → FrameShape s.params.maxPacketLen p → held ++ s.rxBuf = p ++ rest →
      (∃ t, exec (.recvPacket false) s = .next t ∧ ReceiveFrame s t ∧ t.rxBuf = rest ∧ t.acc = [] ∧ Completed t p 0 ∧
        SameOutsideOut s t p.length) ∧
      (∃ t, exec (.recvPacket true) s = .next t ∧ ReceiveFrame s t ∧ t.rxBuf = rest ∧ t.acc = [] ∧
        (∀ e, validateOf s.params.hexCase p = some e → Failed t e.code 0) ∧
        (validateOf s.params.hexCase p = none → s.ackMode = false →
          Completed t p 0 ∧ SameOutsideOut s t p.length) ∧
        (validateOf s.params.hexCase p = none → s.ackMode = true →
          t.phase = .sending [0x2B] (.plus p) none ∧ t.armed = true ∧ SameOutputs s t))) ∧
    (∀ held v pt acc, ScansAfter s held → ScanOk s.params.maxPacketLen acc pt → held ++ s.rxBuf = taken acc pt →
      ∃ t, exec (.recvPacket v) s = .next t ∧ ScanWaits s t pt acc) ∧
    (∀ v, ((∃ p, s.phase = .sending [0x2B] (.plus p) none) ∨ ∃ pt t0 w, s.phase = .refilling (.scan pt) t0 w none) →
      exec (.recvPacket v) s = .next s) ∧
    (∀ p, FrameShape s.params.maxPacketLen p → s.phase = .sending [0x2B] (.plus p) (some .done) →
      ∃ t, exec (.recvPacket true) s = .next t ∧ Completed t p 0 ∧ SameLinkSide s t ∧ SameFixed s t ∧ SameTransport s t ∧
        SameOutsideOut s t p.length) ∧
    (∀ p, s.phase = .sending [0x2B] (.plus p) (some .failed) →
      ∃ t, exec (.recvPacket true) s = .next t ∧ Failed t 0x52 0 ∧ SameLinkSide s t ∧ SameFixed s t ∧ SameTransport s t)

/-- RECV_AND_DECODE with a whole frame at hand, at its start or after a chunk (44_packet_exchange.md rule R251;
70_reset_and_hazards.md rule R322): a valid frame is acknowledged first when ACK_MODE = 1 and only then decoded; a payload
that does not decode fails after the `+`. With only a part of a frame at hand it waits for more. In the scan's refill and in
the `+` write a step changes nothing until the environment has answered (40_command_cycle.md rule R127). That ACC is empty
after the frame is the model's reading (log entry 11). That an event and the block's going on are two steps, with the answer
in PHASE between them, is the model's choice (log entry 10). -/
def Obligations.RecvAndDecodeResult : Prop :=
  ∀ s : State, s.params.wf = true →
    (∀ held body c0 c1 rest, ScansAfter s held → held ++ s.rxBuf = 0x24 :: body ++ [0x23, c0, c1] ++ rest →
      0x23 ∉ body → body.length + 2 ≤ s.params.maxPacketLen →
      ∃ t, exec .recvAndDecode s = .next t ∧ ReceiveFrame s t ∧ t.rxBuf = rest ∧ t.acc = [] ∧
        (∀ e, validateOf s.params.hexCase (0x24 :: body ++ [0x23, c0, c1]) = some e → Failed t e.code 0) ∧
        (validateOf s.params.hexCase (0x24 :: body ++ [0x23, c0, c1]) = none → s.ackMode = true →
          t.phase = .sending [0x2B] (.plus (0x24 :: body ++ [0x23, c0, c1])) none ∧ t.armed = true ∧ SameOutputs s t) ∧
        (validateOf s.params.hexCase (0x24 :: body ++ [0x23, c0, c1]) = none → s.ackMode = false →
          (∀ d, Decodes body d → d.length ≤ s.params.outCap → Completed t d 0 ∧ SameOutsideOut s t d.length) ∧
          (∀ d, Decodes body d → s.params.outCap < d.length → Failed t 0x62 0) ∧
          (∀ code, Malformed body code → Failed t code 0))) ∧
    (∀ held pt acc, ScansAfter s held → ScanOk s.params.maxPacketLen acc pt → held ++ s.rxBuf = taken acc pt →
      ∃ t, exec .recvAndDecode s = .next t ∧ ScanWaits s t pt acc) ∧
    (((∃ p, s.phase = .sending [0x2B] (.plus p) none) ∨ ∃ pt t0 w, s.phase = .refilling (.scan pt) t0 w none) →
      exec .recvAndDecode s = .next s) ∧
    (∀ body c0 c1, s.phase = .sending [0x2B] (.plus (0x24 :: body ++ [0x23, c0, c1])) (some .done) →
      ∃ t, exec .recvAndDecode s = .next t ∧ SameLinkSide s t ∧ SameFixed s t ∧ SameTransport s t ∧
        (∀ d, Decodes body d → d.length ≤ s.params.outCap → Completed t d 0 ∧ SameOutsideOut s t d.length) ∧
        (∀ d, Decodes body d → s.params.outCap < d.length → Failed t 0x62 0) ∧
        (∀ code, Malformed body code → Failed t code 0)) ∧
    (∀ body c0 c1, s.phase = .sending [0x2B] (.plus (0x24 :: body ++ [0x23, c0, c1])) (some .failed) →
      ∃ t, exec .recvAndDecode s = .next t ∧ Failed t 0x52 0 ∧ SameLinkSide s t ∧ SameFixed s t ∧ SameTransport s t)

/-- A receive whose first byte is not `$`, or whose frame body reaches MAX_PACKET_LEN with no `#`, fails with 0x23 and the
byte, or 0x24 and the limit, at its start or after a chunk, though more bytes may be at hand and no time may remain; ACC is
dropped, RXSTREAM and LINK stay, RXBUF is any sequence of at most RX_CHUNK_MAX bytes (44_packet_exchange.md rules R246, R252,
R262; log entry 7). That an event and the block's going on are two steps, with the answer in PHASE between them, is the
model's choice (log entry 10). -/
def Obligations.ScanFailures : Prop :=
  ∀ (s : State) (i : Instr) (held : Bytes), ScansAfter s held → 2 ≤ s.params.maxPacketLen →
    (i = .recvAndDecode ∨ ∃ v, i = .recvPacket v) →
    (∀ b rest, held = [] → s.rxBuf = b :: rest → b ≠ 0x24 →
      ∃ t, exec i s = .next t ∧ Failed t 0x23 (b.setWidth 32) ∧ ReceiveFrame s t ∧ t.acc = [] ∧
        t.rxBuf.length ≤ s.params.rxChunkMax) ∧
    (∀ body rest, held ++ s.rxBuf = 0x24 :: body ++ rest → 0x23 ∉ body → body.length + 1 = s.params.maxPacketLen →
      ∃ t, exec i s = .next t ∧ Failed t 0x24 (BitVec.ofNat 32 s.params.maxPacketLen) ∧ ReceiveFrame s t ∧ t.acc = [] ∧
        t.rxBuf.length ≤ s.params.rxChunkMax)

/-- RECV_PACKET never ends with 0x15, 0x16, 0x17 or 0x62 (44_packet_exchange.md rule R250): in every state of the invariant a
step of it that ends in an error ends in another. -/
def Obligations.RecvPacketErrorsExcluded : Prop :=
  ∀ s t : State, StateInv s → InReceive s → (s.curCmd = 0x30 ∨ s.curCmd = 0x130) → step s = .next t → t.err = true →
    t.errCode ≠ 0x15 ∧ t.errCode ≠ 0x16 ∧ t.errCode ≠ 0x17 ∧ t.errCode ≠ 0x62

/-- Stream conservation on success (44_packet_exchange.md rule R260), over a whole run: from the start of a receive to the
step that completes it, through any turns of any agents, the bytes at hand at its start followed by what the peer appended are
the frame followed by what is left, and the frame, or its decoded payload, is the result. The turns are the model's agenda
(log entry 1). -/
def Obligations.ReceiveConservesTheStream : Prop :=
  ∀ (n : Nat) (s t : State), StateInv s → InReceive s → s.phase = .start → s.link = true →
    core.run n s = .next t → (∀ m u, m < n → core.run m s = .next u → u.phase ≠ .idle) → t.phase = .idle → t.err = false →
    ∃ p, s.rxBuf ++ s.rxStream ++ (s.agenda.take n).flatMap appendedBy = p ++ t.rxBuf ++ t.rxStream ∧
      FrameShape s.params.maxPacketLen p ∧ Returned s t p

/-! ## Rules over every command and every step -/

/-- No command writes its operands, the configuration, or IN (10_state.md rules R28, R34; 20_memory.md rule R64), and until it
ends it changes no byte and nothing of STATUS, RESULT or OUT_LEN (rules R123, R125). LINK and ACK_MODE change only where rules
R22 and R23 say, and the transport only by DISCONNECT. That of the commands only DISCONNECT changes the transport is the
model's choice (log entry 10): what Opened does to RXSTREAM and TXLOG for CONNECT, and TxDone to TXLOG for a send, happens at
the event's own step and not at the command's. That every command but a receive leaves ACC as it was, its Fail included, is
the model's reading (log entry 11). -/
def Obligations.CommandFrames : Prop :=
  ∀ (i : Instr) (s t : State), exec i s = .next t →
    SameFixed s t ∧ (t.phase ≠ .idle → SameOutputs s t) ∧
    (i ≠ .connect → i ≠ .disconnect → t.link = s.link) ∧
    (i ≠ .connect → (∀ v, i ≠ .setAckMode v) → t.ackMode = s.ackMode) ∧
    (i ≠ .disconnect → SameTransport s t) ∧
    ((∀ v, i ≠ .recvPacket v) → i ≠ .recvAndDecode → t.acc = s.acc) ∧
    ((∀ v, i ≠ .recvPacket v) → i ≠ .recvAndDecode → i ≠ .checkAck → (∀ ck chk, i ≠ .sendPacket ck chk) →
      t.tArm = s.tArm) ∧
    ((∀ v, i ≠ .recvPacket v) → i ≠ .recvAndDecode → i ≠ .checkAck → (∀ ck chk, i ≠ .sendPacket ck chk) →
      i ≠ .connect → i ≠ .disconnect → t.rxBuf = s.rxBuf)

/-- Only CONNECT writes LINK 1; only DISCONNECT and the abort, with its 0x54, write it 0 (10_state.md rule R22). -/
def Obligations.LinkWriters : Prop :=
  ∀ s t : State, StateInv s → step s = .next t →
    (s.link = false → t.link = true → s.curCmd = 0x10 ∧ t.done = true ∧ t.err = false) ∧
    (s.link = true → t.link = false → (s.curCmd = 0x11 ∧ t.done = true ∧ t.err = false) ∨ t.errCode = 0x54)

/-- A successful CONNECT sets ACK_MODE, SET_ACK_MODE writes it, and nothing else does (10_state.md rule R23). -/
def Obligations.AckModeWriters : Prop :=
  ∀ s t : State, StateInv s → step s = .next t → t.ackMode ≠ s.ackMode →
    (s.curCmd = 0x10 ∧ t.ackMode = true ∧ t.link = true ∧ t.err = false) ∨
    (s.curCmd = 0x112 ∧ t.ackMode = true) ∨ (s.curCmd = 0x12 ∧ t.ackMode = false)

/-- The configuration and the parameters never change (10_state.md rule R28; 00_scope.md rule R4), and a byte of IN changes
only by a host write while no command is in progress (10_state.md rule R34; 20_memory.md rule R70). The turns are the model's
agenda (log entry 1). -/
def Obligations.ConfigurationAndOperandsAreStable : Prop :=
  ∀ s t : State, step s = .next t →
    t.params = s.params ∧ t.cfgHost = s.cfgHost ∧ t.cfgPort = s.cfgPort ∧ t.cfgTimeout = s.cfgTimeout ∧
    (s.phase ≠ .idle → t.arg = s.arg ∧ t.inLen = s.inLen ∧ ∀ a, a < outBase → t.byteAt a = s.byteAt a) ∧
    (∀ a, a < outBase → t.byteAt a ≠ s.byteAt a →
      s.phase = .idle ∧ ∃ addr width v rest, s.agenda = .host (.write addr width v) :: rest)

/-- `now` never decreases, and only the time source's turn moves it (42_rx_path.md rule R190). The turns are the model's
agenda (log entry 1). -/
def Obligations.TimeNeverDecreases : Prop :=
  ∀ s t : State, step s = .next t →
    s.now ≤ t.now ∧ ((∀ n rest, s.agenda ≠ .tick n :: rest) → t.now = s.now)

/-! ## Construction, reset, invariant -/

/-- The construction checks and their order (70_reset_and_hazards.md rule R310): the port, the timeout, then the parameters, by
00_scope.md rule R5, the window sizes of 20_memory.md rule R60 and DEFAULT_RX_TIMEOUT > 0 (rule R4; 92_eei_decisions.md D34).
That parameters of 2^32 or more are refused too, and that the timeout of an instance fits its register, is the model's reading
(log entry 18), and so is that a DEFAULT_RX_TIMEOUT of 0 is refused, after 0x47 where it is the timeout (log entry 26). -/
def Obligations.ConstructChecks : Prop :=
  ∀ (p : Params) (host : Bytes) (port : Int) (timeout : Option Int),
    let ticks := timeout.getD (p.defaultRxTimeout : Int)
    (port < 1 ∨ 65535 < port → construct p host port timeout = .fault .badPort) ∧
    (1 ≤ port → port ≤ 65535 → ticks ≤ 0 → construct p host port timeout = .fault .badTimeout) ∧
    (1 ≤ port → port ≤ 65535 → 0 < ticks → p.wf = false → construct p host port timeout = .refused .illFormedInstance) ∧
    (1 ≤ port → port ≤ 65535 → 0 < ticks → p.defaultRxTimeout = 0 →
      construct p host port timeout = .refused .illFormedInstance) ∧
    (1 ≤ port → port ≤ 65535 → 0 < ticks → ticks < 2 ^ 32 → p.wf = true →
      ∃ s, construct p host port timeout = .next s ∧ s.params = p ∧ s.cfgHost = host ∧
        (s.cfgPort.toNat : Int) = port ∧ (s.cfgTimeout.toNat : Int) = ticks)

/-- The reset state (70_reset_and_hazards.md rule R311): what every constructed instance holds, for each element the rule
gives a value. -/
def Obligations.ResetStateValues : Prop :=
  ∀ (p : Params) (host : Bytes) (port : Int) (timeout : Option Int) (s : State),
    construct p host port timeout = .next s →
    s.params = p ∧ s.cfgHost = host ∧ (s.cfgPort.toNat : Int) = port ∧
    (s.cfgTimeout.toNat : Int) = timeout.getD (p.defaultRxTimeout : Int) ∧ s.phase = .idle ∧ s.link = false ∧ s.ackMode = true ∧ s.rxBuf = [] ∧ s.armed = false ∧ s.acc = [] ∧ s.curCmd = 0 ∧
    s.statusWord = 0x00000010 ∧ s.arg = 0 ∧ s.result = 0 ∧ s.inLen = 0 ∧ s.outLen = 0 ∧ s.transportOpen = false ∧
    s.rxStream = [] ∧ s.txLog = []

/-- The invariant holds at reset. That the peer's side is then open is the model's choice (log entry 4). -/
def Obligations.InvariantAtReset : Prop := StateInv State.reset

/-- The invariant holds in every constructed instance, whatever its parameters and configuration. That the peer's side is then
open is the model's choice (log entry 4). -/
def Obligations.InvariantAtConstruction : Prop :=
  ∀ (p : Params) (host : Bytes) (port : Int) (timeout : Option Int) (s : State),
    construct p host port timeout = .next s → StateInv s

/-- Every step keeps the invariant: memory stays canonical and inside the windows, RXBUF within RX_CHUNK_MAX (42_rx_path.md
rule R201), BUSY and DONE are never both 1 (10_state.md rule R30), ARG[31:16] is 0 (rule R31), LINK mirrors the transport,
ERRCODE is 0 or a listed code, and each wait holds what its command's rules say. Where StateInv goes beyond the spec's words it
is the model's reading: ACC empty after a completed receive (log entry 11), the transport open from Opened on, before LINK is 1
(log entry 17), the peer's side open on a closed transport (log entry 21), the outputs known to the host only with DONE = 1 (log
entry 8), a wait's answer held in PHASE (log entry 10), and parameters below 2^32 (log entry 18). -/
def Obligations.StepKeepsInvariant : Prop :=
  ∀ s t : State, StateInv s → step s = .next t → StateInv t
end

