-- ==== Sys2Proof/Laws/State.lean ====
section
/-! SUPPORT. What each named update of the state leaves in each field, one lemma per field per update, true by rfl, so that no
proof unfolds an update. -/
namespace Sys2Proof.Machine

/-! ## issue -/

@[simp] theorem issue_params (w : Word) (s : State) : (issue w s).params = s.params := rfl
@[simp] theorem issue_cfgHost (w : Word) (s : State) : (issue w s).cfgHost = s.cfgHost := rfl
@[simp] theorem issue_cfgPort (w : Word) (s : State) : (issue w s).cfgPort = s.cfgPort := rfl
@[simp] theorem issue_cfgTimeout (w : Word) (s : State) : (issue w s).cfgTimeout = s.cfgTimeout := rfl
@[simp] theorem issue_phase (w : Word) (s : State) : (issue w s).phase = .dispatch := rfl
@[simp] theorem issue_curCmd (w : Word) (s : State) : (issue w s).curCmd = w := rfl
@[simp] theorem issue_link (w : Word) (s : State) : (issue w s).link = s.link := rfl
@[simp] theorem issue_ackMode (w : Word) (s : State) : (issue w s).ackMode = s.ackMode := rfl
@[simp] theorem issue_rxBuf (w : Word) (s : State) : (issue w s).rxBuf = s.rxBuf := rfl
@[simp] theorem issue_tArm (w : Word) (s : State) : (issue w s).tArm = s.tArm := rfl
@[simp] theorem issue_armed (w : Word) (s : State) : (issue w s).armed = s.armed := rfl
@[simp] theorem issue_acc (w : Word) (s : State) : (issue w s).acc = s.acc := rfl
@[simp] theorem issue_done (w : Word) (s : State) : (issue w s).done = false := rfl
@[simp] theorem issue_err (w : Word) (s : State) : (issue w s).err = false := rfl
@[simp] theorem issue_errCode (w : Word) (s : State) : (issue w s).errCode = 0 := rfl
@[simp] theorem issue_arg (w : Word) (s : State) : (issue w s).arg = s.arg := rfl
@[simp] theorem issue_result (w : Word) (s : State) : (issue w s).result = 0 := rfl
@[simp] theorem issue_inLen (w : Word) (s : State) : (issue w s).inLen = s.inLen := rfl
@[simp] theorem issue_outLen (w : Word) (s : State) : (issue w s).outLen = 0 := rfl
@[simp] theorem issue_mem (w : Word) (s : State) : (issue w s).mem = s.mem := rfl
@[simp] theorem issue_now (w : Word) (s : State) : (issue w s).now = s.now := rfl
@[simp] theorem issue_transportOpen (w : Word) (s : State) : (issue w s).transportOpen = s.transportOpen := rfl
@[simp] theorem issue_peerClosed (w : Word) (s : State) : (issue w s).peerClosed = s.peerClosed := rfl
@[simp] theorem issue_rxStream (w : Word) (s : State) : (issue w s).rxStream = s.rxStream := rfl
@[simp] theorem issue_txLog (w : Word) (s : State) : (issue w s).txLog = s.txLog := rfl
@[simp] theorem issue_peerGot (w : Word) (s : State) : (issue w s).peerGot = s.peerGot := rfl
@[simp] theorem issue_draws (w : Word) (s : State) : (issue w s).draws = s.draws := rfl
@[simp] theorem issue_inEpoch (w : Word) (s : State) : (issue w s).inEpoch = s.inEpoch := rfl
@[simp] theorem issue_outEpoch (w : Word) (s : State) : (issue w s).outEpoch = s.outEpoch := rfl
@[simp] theorem issue_outputsSettled (w : Word) (s : State) : (issue w s).outputsSettled = false := rfl
@[simp] theorem issue_busData (w : Word) (s : State) : (issue w s).busData = s.busData := rfl
@[simp] theorem issue_agenda (w : Word) (s : State) : (issue w s).agenda = s.agenda := rfl

/-! ## fail -/

@[simp] theorem fail_params (e : Err) (r : Word) (s : State) : (fail e r s).params = s.params := rfl
@[simp] theorem fail_cfgHost (e : Err) (r : Word) (s : State) : (fail e r s).cfgHost = s.cfgHost := rfl
@[simp] theorem fail_cfgPort (e : Err) (r : Word) (s : State) : (fail e r s).cfgPort = s.cfgPort := rfl
@[simp] theorem fail_cfgTimeout (e : Err) (r : Word) (s : State) : (fail e r s).cfgTimeout = s.cfgTimeout := rfl
@[simp] theorem fail_phase (e : Err) (r : Word) (s : State) : (fail e r s).phase = .idle := rfl
@[simp] theorem fail_curCmd (e : Err) (r : Word) (s : State) : (fail e r s).curCmd = s.curCmd := rfl
@[simp] theorem fail_link (e : Err) (r : Word) (s : State) : (fail e r s).link = s.link := rfl
@[simp] theorem fail_ackMode (e : Err) (r : Word) (s : State) : (fail e r s).ackMode = s.ackMode := rfl
@[simp] theorem fail_rxBuf (e : Err) (r : Word) (s : State) : (fail e r s).rxBuf = s.rxBuf := rfl
@[simp] theorem fail_tArm (e : Err) (r : Word) (s : State) : (fail e r s).tArm = s.tArm := rfl
@[simp] theorem fail_armed (e : Err) (r : Word) (s : State) : (fail e r s).armed = false := rfl
@[simp] theorem fail_acc (e : Err) (r : Word) (s : State) : (fail e r s).acc = s.acc := rfl
@[simp] theorem fail_done (e : Err) (r : Word) (s : State) : (fail e r s).done = true := rfl
@[simp] theorem fail_err (e : Err) (r : Word) (s : State) : (fail e r s).err = true := rfl
@[simp] theorem fail_errCode (e : Err) (r : Word) (s : State) : (fail e r s).errCode = e.code := rfl
@[simp] theorem fail_arg (e : Err) (r : Word) (s : State) : (fail e r s).arg = s.arg := rfl
@[simp] theorem fail_result (e : Err) (r : Word) (s : State) : (fail e r s).result = r := rfl
@[simp] theorem fail_inLen (e : Err) (r : Word) (s : State) : (fail e r s).inLen = s.inLen := rfl
@[simp] theorem fail_outLen (e : Err) (r : Word) (s : State) : (fail e r s).outLen = 0 := rfl
@[simp] theorem fail_mem (e : Err) (r : Word) (s : State) : (fail e r s).mem = Memory.clearFrom s.mem outBase := rfl
@[simp] theorem fail_now (e : Err) (r : Word) (s : State) : (fail e r s).now = s.now := rfl
@[simp] theorem fail_transportOpen (e : Err) (r : Word) (s : State) : (fail e r s).transportOpen = s.transportOpen := rfl
@[simp] theorem fail_peerClosed (e : Err) (r : Word) (s : State) : (fail e r s).peerClosed = s.peerClosed := rfl
@[simp] theorem fail_rxStream (e : Err) (r : Word) (s : State) : (fail e r s).rxStream = s.rxStream := rfl
@[simp] theorem fail_txLog (e : Err) (r : Word) (s : State) : (fail e r s).txLog = s.txLog := rfl
@[simp] theorem fail_peerGot (e : Err) (r : Word) (s : State) : (fail e r s).peerGot = s.peerGot := rfl
@[simp] theorem fail_draws (e : Err) (r : Word) (s : State) : (fail e r s).draws = s.draws + 1 := rfl
@[simp] theorem fail_inEpoch (e : Err) (r : Word) (s : State) : (fail e r s).inEpoch = s.inEpoch := rfl
@[simp] theorem fail_outEpoch (e : Err) (r : Word) (s : State) : (fail e r s).outEpoch = s.draws := rfl
@[simp] theorem fail_outputsSettled (e : Err) (r : Word) (s : State) : (fail e r s).outputsSettled = s.outputsSettled := rfl
@[simp] theorem fail_busData (e : Err) (r : Word) (s : State) : (fail e r s).busData = s.busData := rfl
@[simp] theorem fail_agenda (e : Err) (r : Word) (s : State) : (fail e r s).agenda = s.agenda := rfl

/-! ## finish -/

@[simp] theorem finish_params (out : Bytes) (r : Word) (s : State) : (finish out r s).params = s.params := rfl
@[simp] theorem finish_cfgHost (out : Bytes) (r : Word) (s : State) : (finish out r s).cfgHost = s.cfgHost := rfl
@[simp] theorem finish_cfgPort (out : Bytes) (r : Word) (s : State) : (finish out r s).cfgPort = s.cfgPort := rfl
@[simp] theorem finish_cfgTimeout (out : Bytes) (r : Word) (s : State) : (finish out r s).cfgTimeout = s.cfgTimeout := rfl
@[simp] theorem finish_phase (out : Bytes) (r : Word) (s : State) : (finish out r s).phase = .idle := rfl
@[simp] theorem finish_curCmd (out : Bytes) (r : Word) (s : State) : (finish out r s).curCmd = s.curCmd := rfl
@[simp] theorem finish_link (out : Bytes) (r : Word) (s : State) : (finish out r s).link = s.link := rfl
@[simp] theorem finish_ackMode (out : Bytes) (r : Word) (s : State) : (finish out r s).ackMode = s.ackMode := rfl
@[simp] theorem finish_rxBuf (out : Bytes) (r : Word) (s : State) : (finish out r s).rxBuf = s.rxBuf := rfl
@[simp] theorem finish_tArm (out : Bytes) (r : Word) (s : State) : (finish out r s).tArm = s.tArm := rfl
@[simp] theorem finish_armed (out : Bytes) (r : Word) (s : State) : (finish out r s).armed = false := rfl
@[simp] theorem finish_acc (out : Bytes) (r : Word) (s : State) : (finish out r s).acc = s.acc := rfl
@[simp] theorem finish_done (out : Bytes) (r : Word) (s : State) : (finish out r s).done = true := rfl
@[simp] theorem finish_err (out : Bytes) (r : Word) (s : State) : (finish out r s).err = false := rfl
@[simp] theorem finish_errCode (out : Bytes) (r : Word) (s : State) : (finish out r s).errCode = 0 := rfl
@[simp] theorem finish_arg (out : Bytes) (r : Word) (s : State) : (finish out r s).arg = s.arg := rfl
@[simp] theorem finish_result (out : Bytes) (r : Word) (s : State) : (finish out r s).result = r := rfl
@[simp] theorem finish_inLen (out : Bytes) (r : Word) (s : State) : (finish out r s).inLen = s.inLen := rfl
@[simp] theorem finish_outLen (out : Bytes) (r : Word) (s : State) : (finish out r s).outLen = BitVec.ofNat 32 out.length := rfl
@[simp] theorem finish_mem (out : Bytes) (r : Word) (s : State) : (finish out r s).mem = Memory.storeAll s.mem outBase out := rfl
@[simp] theorem finish_now (out : Bytes) (r : Word) (s : State) : (finish out r s).now = s.now := rfl
@[simp] theorem finish_transportOpen (out : Bytes) (r : Word) (s : State) : (finish out r s).transportOpen = s.transportOpen := rfl
@[simp] theorem finish_peerClosed (out : Bytes) (r : Word) (s : State) : (finish out r s).peerClosed = s.peerClosed := rfl
@[simp] theorem finish_rxStream (out : Bytes) (r : Word) (s : State) : (finish out r s).rxStream = s.rxStream := rfl
@[simp] theorem finish_txLog (out : Bytes) (r : Word) (s : State) : (finish out r s).txLog = s.txLog := rfl
@[simp] theorem finish_peerGot (out : Bytes) (r : Word) (s : State) : (finish out r s).peerGot = s.peerGot := rfl
@[simp] theorem finish_draws (out : Bytes) (r : Word) (s : State) : (finish out r s).draws = s.draws := rfl
@[simp] theorem finish_inEpoch (out : Bytes) (r : Word) (s : State) : (finish out r s).inEpoch = s.inEpoch := rfl
@[simp] theorem finish_outEpoch (out : Bytes) (r : Word) (s : State) : (finish out r s).outEpoch = s.outEpoch := rfl
@[simp] theorem finish_outputsSettled (out : Bytes) (r : Word) (s : State) : (finish out r s).outputsSettled = s.outputsSettled := rfl
@[simp] theorem finish_busData (out : Bytes) (r : Word) (s : State) : (finish out r s).busData = s.busData := rfl
@[simp] theorem finish_agenda (out : Bytes) (r : Word) (s : State) : (finish out r s).agenda = s.agenda := rfl

/-! ## arm -/

@[simp] theorem arm_params (s : State) : (arm s).params = s.params := rfl
@[simp] theorem arm_cfgHost (s : State) : (arm s).cfgHost = s.cfgHost := rfl
@[simp] theorem arm_cfgPort (s : State) : (arm s).cfgPort = s.cfgPort := rfl
@[simp] theorem arm_cfgTimeout (s : State) : (arm s).cfgTimeout = s.cfgTimeout := rfl
@[simp] theorem arm_phase (s : State) : (arm s).phase = s.phase := rfl
@[simp] theorem arm_curCmd (s : State) : (arm s).curCmd = s.curCmd := rfl
@[simp] theorem arm_link (s : State) : (arm s).link = s.link := rfl
@[simp] theorem arm_ackMode (s : State) : (arm s).ackMode = s.ackMode := rfl
@[simp] theorem arm_rxBuf (s : State) : (arm s).rxBuf = s.rxBuf := rfl
@[simp] theorem arm_tArm (s : State) : (arm s).tArm = s.now := rfl
@[simp] theorem arm_armed (s : State) : (arm s).armed = true := rfl
@[simp] theorem arm_acc (s : State) : (arm s).acc = s.acc := rfl
@[simp] theorem arm_done (s : State) : (arm s).done = s.done := rfl
@[simp] theorem arm_err (s : State) : (arm s).err = s.err := rfl
@[simp] theorem arm_errCode (s : State) : (arm s).errCode = s.errCode := rfl
@[simp] theorem arm_arg (s : State) : (arm s).arg = s.arg := rfl
@[simp] theorem arm_result (s : State) : (arm s).result = s.result := rfl
@[simp] theorem arm_inLen (s : State) : (arm s).inLen = s.inLen := rfl
@[simp] theorem arm_outLen (s : State) : (arm s).outLen = s.outLen := rfl
@[simp] theorem arm_mem (s : State) : (arm s).mem = s.mem := rfl
@[simp] theorem arm_now (s : State) : (arm s).now = s.now := rfl
@[simp] theorem arm_transportOpen (s : State) : (arm s).transportOpen = s.transportOpen := rfl
@[simp] theorem arm_peerClosed (s : State) : (arm s).peerClosed = s.peerClosed := rfl
@[simp] theorem arm_rxStream (s : State) : (arm s).rxStream = s.rxStream := rfl
@[simp] theorem arm_txLog (s : State) : (arm s).txLog = s.txLog := rfl
@[simp] theorem arm_peerGot (s : State) : (arm s).peerGot = s.peerGot := rfl
@[simp] theorem arm_draws (s : State) : (arm s).draws = s.draws := rfl
@[simp] theorem arm_inEpoch (s : State) : (arm s).inEpoch = s.inEpoch := rfl
@[simp] theorem arm_outEpoch (s : State) : (arm s).outEpoch = s.outEpoch := rfl
@[simp] theorem arm_outputsSettled (s : State) : (arm s).outputsSettled = s.outputsSettled := rfl
@[simp] theorem arm_busData (s : State) : (arm s).busData = s.busData := rfl
@[simp] theorem arm_agenda (s : State) : (arm s).agenda = s.agenda := rfl

/-! ## drawRxBuf -/

@[simp] theorem drawRxBuf_params (s : State) : (drawRxBuf s).params = s.params := rfl
@[simp] theorem drawRxBuf_cfgHost (s : State) : (drawRxBuf s).cfgHost = s.cfgHost := rfl
@[simp] theorem drawRxBuf_cfgPort (s : State) : (drawRxBuf s).cfgPort = s.cfgPort := rfl
@[simp] theorem drawRxBuf_cfgTimeout (s : State) : (drawRxBuf s).cfgTimeout = s.cfgTimeout := rfl
@[simp] theorem drawRxBuf_phase (s : State) : (drawRxBuf s).phase = s.phase := rfl
@[simp] theorem drawRxBuf_curCmd (s : State) : (drawRxBuf s).curCmd = s.curCmd := rfl
@[simp] theorem drawRxBuf_link (s : State) : (drawRxBuf s).link = s.link := rfl
@[simp] theorem drawRxBuf_ackMode (s : State) : (drawRxBuf s).ackMode = s.ackMode := rfl
@[simp] theorem drawRxBuf_rxBuf (s : State) : (drawRxBuf s).rxBuf = (Config.freeBytes s.draws).take s.params.rxChunkMax := rfl
@[simp] theorem drawRxBuf_tArm (s : State) : (drawRxBuf s).tArm = s.tArm := rfl
@[simp] theorem drawRxBuf_armed (s : State) : (drawRxBuf s).armed = s.armed := rfl
@[simp] theorem drawRxBuf_acc (s : State) : (drawRxBuf s).acc = s.acc := rfl
@[simp] theorem drawRxBuf_done (s : State) : (drawRxBuf s).done = s.done := rfl
@[simp] theorem drawRxBuf_err (s : State) : (drawRxBuf s).err = s.err := rfl
@[simp] theorem drawRxBuf_errCode (s : State) : (drawRxBuf s).errCode = s.errCode := rfl
@[simp] theorem drawRxBuf_arg (s : State) : (drawRxBuf s).arg = s.arg := rfl
@[simp] theorem drawRxBuf_result (s : State) : (drawRxBuf s).result = s.result := rfl
@[simp] theorem drawRxBuf_inLen (s : State) : (drawRxBuf s).inLen = s.inLen := rfl
@[simp] theorem drawRxBuf_outLen (s : State) : (drawRxBuf s).outLen = s.outLen := rfl
@[simp] theorem drawRxBuf_mem (s : State) : (drawRxBuf s).mem = s.mem := rfl
@[simp] theorem drawRxBuf_now (s : State) : (drawRxBuf s).now = s.now := rfl
@[simp] theorem drawRxBuf_transportOpen (s : State) : (drawRxBuf s).transportOpen = s.transportOpen := rfl
@[simp] theorem drawRxBuf_peerClosed (s : State) : (drawRxBuf s).peerClosed = s.peerClosed := rfl
@[simp] theorem drawRxBuf_rxStream (s : State) : (drawRxBuf s).rxStream = s.rxStream := rfl
@[simp] theorem drawRxBuf_txLog (s : State) : (drawRxBuf s).txLog = s.txLog := rfl
@[simp] theorem drawRxBuf_peerGot (s : State) : (drawRxBuf s).peerGot = s.peerGot := rfl
@[simp] theorem drawRxBuf_draws (s : State) : (drawRxBuf s).draws = s.draws + 1 := rfl
@[simp] theorem drawRxBuf_inEpoch (s : State) : (drawRxBuf s).inEpoch = s.inEpoch := rfl
@[simp] theorem drawRxBuf_outEpoch (s : State) : (drawRxBuf s).outEpoch = s.outEpoch := rfl
@[simp] theorem drawRxBuf_outputsSettled (s : State) : (drawRxBuf s).outputsSettled = s.outputsSettled := rfl
@[simp] theorem drawRxBuf_busData (s : State) : (drawRxBuf s).busData = s.busData := rfl
@[simp] theorem drawRxBuf_agenda (s : State) : (drawRxBuf s).agenda = s.agenda := rfl

/-! ## closeTransport -/

@[simp] theorem closeTransport_params (s : State) : (closeTransport s).params = s.params := rfl
@[simp] theorem closeTransport_cfgHost (s : State) : (closeTransport s).cfgHost = s.cfgHost := rfl
@[simp] theorem closeTransport_cfgPort (s : State) : (closeTransport s).cfgPort = s.cfgPort := rfl
@[simp] theorem closeTransport_cfgTimeout (s : State) : (closeTransport s).cfgTimeout = s.cfgTimeout := rfl
@[simp] theorem closeTransport_phase (s : State) : (closeTransport s).phase = s.phase := rfl
@[simp] theorem closeTransport_curCmd (s : State) : (closeTransport s).curCmd = s.curCmd := rfl
@[simp] theorem closeTransport_link (s : State) : (closeTransport s).link = s.link := rfl
@[simp] theorem closeTransport_ackMode (s : State) : (closeTransport s).ackMode = s.ackMode := rfl
@[simp] theorem closeTransport_rxBuf (s : State) : (closeTransport s).rxBuf = s.rxBuf := rfl
@[simp] theorem closeTransport_tArm (s : State) : (closeTransport s).tArm = s.tArm := rfl
@[simp] theorem closeTransport_armed (s : State) : (closeTransport s).armed = s.armed := rfl
@[simp] theorem closeTransport_acc (s : State) : (closeTransport s).acc = s.acc := rfl
@[simp] theorem closeTransport_done (s : State) : (closeTransport s).done = s.done := rfl
@[simp] theorem closeTransport_err (s : State) : (closeTransport s).err = s.err := rfl
@[simp] theorem closeTransport_errCode (s : State) : (closeTransport s).errCode = s.errCode := rfl
@[simp] theorem closeTransport_arg (s : State) : (closeTransport s).arg = s.arg := rfl
@[simp] theorem closeTransport_result (s : State) : (closeTransport s).result = s.result := rfl
@[simp] theorem closeTransport_inLen (s : State) : (closeTransport s).inLen = s.inLen := rfl
@[simp] theorem closeTransport_outLen (s : State) : (closeTransport s).outLen = s.outLen := rfl
@[simp] theorem closeTransport_mem (s : State) : (closeTransport s).mem = s.mem := rfl
@[simp] theorem closeTransport_now (s : State) : (closeTransport s).now = s.now := rfl
@[simp] theorem closeTransport_transportOpen (s : State) : (closeTransport s).transportOpen = false := rfl
@[simp] theorem closeTransport_peerClosed (s : State) : (closeTransport s).peerClosed = false := rfl
@[simp] theorem closeTransport_rxStream (s : State) : (closeTransport s).rxStream = [] := rfl
@[simp] theorem closeTransport_txLog (s : State) : (closeTransport s).txLog = s.txLog := rfl
@[simp] theorem closeTransport_peerGot (s : State) : (closeTransport s).peerGot = s.peerGot := rfl
@[simp] theorem closeTransport_draws (s : State) : (closeTransport s).draws = s.draws := rfl
@[simp] theorem closeTransport_inEpoch (s : State) : (closeTransport s).inEpoch = s.inEpoch := rfl
@[simp] theorem closeTransport_outEpoch (s : State) : (closeTransport s).outEpoch = s.outEpoch := rfl
@[simp] theorem closeTransport_outputsSettled (s : State) : (closeTransport s).outputsSettled = s.outputsSettled := rfl
@[simp] theorem closeTransport_busData (s : State) : (closeTransport s).busData = s.busData := rfl
@[simp] theorem closeTransport_agenda (s : State) : (closeTransport s).agenda = s.agenda := rfl

/-! ## openTransport -/

@[simp] theorem openTransport_params (s : State) : (openTransport s).params = s.params := rfl
@[simp] theorem openTransport_cfgHost (s : State) : (openTransport s).cfgHost = s.cfgHost := rfl
@[simp] theorem openTransport_cfgPort (s : State) : (openTransport s).cfgPort = s.cfgPort := rfl
@[simp] theorem openTransport_cfgTimeout (s : State) : (openTransport s).cfgTimeout = s.cfgTimeout := rfl
@[simp] theorem openTransport_phase (s : State) : (openTransport s).phase = s.phase := rfl
@[simp] theorem openTransport_curCmd (s : State) : (openTransport s).curCmd = s.curCmd := rfl
@[simp] theorem openTransport_link (s : State) : (openTransport s).link = s.link := rfl
@[simp] theorem openTransport_ackMode (s : State) : (openTransport s).ackMode = s.ackMode := rfl
@[simp] theorem openTransport_rxBuf (s : State) : (openTransport s).rxBuf = s.rxBuf := rfl
@[simp] theorem openTransport_tArm (s : State) : (openTransport s).tArm = s.tArm := rfl
@[simp] theorem openTransport_armed (s : State) : (openTransport s).armed = s.armed := rfl
@[simp] theorem openTransport_acc (s : State) : (openTransport s).acc = s.acc := rfl
@[simp] theorem openTransport_done (s : State) : (openTransport s).done = s.done := rfl
@[simp] theorem openTransport_err (s : State) : (openTransport s).err = s.err := rfl
@[simp] theorem openTransport_errCode (s : State) : (openTransport s).errCode = s.errCode := rfl
@[simp] theorem openTransport_arg (s : State) : (openTransport s).arg = s.arg := rfl
@[simp] theorem openTransport_result (s : State) : (openTransport s).result = s.result := rfl
@[simp] theorem openTransport_inLen (s : State) : (openTransport s).inLen = s.inLen := rfl
@[simp] theorem openTransport_outLen (s : State) : (openTransport s).outLen = s.outLen := rfl
@[simp] theorem openTransport_mem (s : State) : (openTransport s).mem = s.mem := rfl
@[simp] theorem openTransport_now (s : State) : (openTransport s).now = s.now := rfl
@[simp] theorem openTransport_transportOpen (s : State) : (openTransport s).transportOpen = true := rfl
@[simp] theorem openTransport_peerClosed (s : State) : (openTransport s).peerClosed = false := rfl
@[simp] theorem openTransport_rxStream (s : State) : (openTransport s).rxStream = [] := rfl
@[simp] theorem openTransport_txLog (s : State) : (openTransport s).txLog = [] := rfl
@[simp] theorem openTransport_peerGot (s : State) : (openTransport s).peerGot = [] := rfl
@[simp] theorem openTransport_draws (s : State) : (openTransport s).draws = s.draws := rfl
@[simp] theorem openTransport_inEpoch (s : State) : (openTransport s).inEpoch = s.inEpoch := rfl
@[simp] theorem openTransport_outEpoch (s : State) : (openTransport s).outEpoch = s.outEpoch := rfl
@[simp] theorem openTransport_outputsSettled (s : State) : (openTransport s).outputsSettled = s.outputsSettled := rfl
@[simp] theorem openTransport_busData (s : State) : (openTransport s).busData = s.busData := rfl
@[simp] theorem openTransport_agenda (s : State) : (openTransport s).agenda = s.agenda := rfl

/-! ## beginTx -/

@[simp] theorem beginTx_params (p : Bytes) (pt : TxPoint) (s : State) : (beginTx p pt s).params = s.params := rfl
@[simp] theorem beginTx_cfgHost (p : Bytes) (pt : TxPoint) (s : State) : (beginTx p pt s).cfgHost = s.cfgHost := rfl
@[simp] theorem beginTx_cfgPort (p : Bytes) (pt : TxPoint) (s : State) : (beginTx p pt s).cfgPort = s.cfgPort := rfl
@[simp] theorem beginTx_cfgTimeout (p : Bytes) (pt : TxPoint) (s : State) : (beginTx p pt s).cfgTimeout = s.cfgTimeout := rfl
@[simp] theorem beginTx_phase (p : Bytes) (pt : TxPoint) (s : State) : (beginTx p pt s).phase = .sending p pt none := rfl
@[simp] theorem beginTx_curCmd (p : Bytes) (pt : TxPoint) (s : State) : (beginTx p pt s).curCmd = s.curCmd := rfl
@[simp] theorem beginTx_link (p : Bytes) (pt : TxPoint) (s : State) : (beginTx p pt s).link = s.link := rfl
@[simp] theorem beginTx_ackMode (p : Bytes) (pt : TxPoint) (s : State) : (beginTx p pt s).ackMode = s.ackMode := rfl
@[simp] theorem beginTx_rxBuf (p : Bytes) (pt : TxPoint) (s : State) : (beginTx p pt s).rxBuf = s.rxBuf := rfl
@[simp] theorem beginTx_tArm (p : Bytes) (pt : TxPoint) (s : State) : (beginTx p pt s).tArm = s.tArm := rfl
@[simp] theorem beginTx_armed (p : Bytes) (pt : TxPoint) (s : State) : (beginTx p pt s).armed = s.armed := rfl
@[simp] theorem beginTx_acc (p : Bytes) (pt : TxPoint) (s : State) : (beginTx p pt s).acc = s.acc := rfl
@[simp] theorem beginTx_done (p : Bytes) (pt : TxPoint) (s : State) : (beginTx p pt s).done = s.done := rfl
@[simp] theorem beginTx_err (p : Bytes) (pt : TxPoint) (s : State) : (beginTx p pt s).err = s.err := rfl
@[simp] theorem beginTx_errCode (p : Bytes) (pt : TxPoint) (s : State) : (beginTx p pt s).errCode = s.errCode := rfl
@[simp] theorem beginTx_arg (p : Bytes) (pt : TxPoint) (s : State) : (beginTx p pt s).arg = s.arg := rfl
@[simp] theorem beginTx_result (p : Bytes) (pt : TxPoint) (s : State) : (beginTx p pt s).result = s.result := rfl
@[simp] theorem beginTx_inLen (p : Bytes) (pt : TxPoint) (s : State) : (beginTx p pt s).inLen = s.inLen := rfl
@[simp] theorem beginTx_outLen (p : Bytes) (pt : TxPoint) (s : State) : (beginTx p pt s).outLen = s.outLen := rfl
@[simp] theorem beginTx_mem (p : Bytes) (pt : TxPoint) (s : State) : (beginTx p pt s).mem = s.mem := rfl
@[simp] theorem beginTx_now (p : Bytes) (pt : TxPoint) (s : State) : (beginTx p pt s).now = s.now := rfl
@[simp] theorem beginTx_transportOpen (p : Bytes) (pt : TxPoint) (s : State) : (beginTx p pt s).transportOpen = s.transportOpen := rfl
@[simp] theorem beginTx_peerClosed (p : Bytes) (pt : TxPoint) (s : State) : (beginTx p pt s).peerClosed = s.peerClosed := rfl
@[simp] theorem beginTx_rxStream (p : Bytes) (pt : TxPoint) (s : State) : (beginTx p pt s).rxStream = s.rxStream := rfl
@[simp] theorem beginTx_txLog (p : Bytes) (pt : TxPoint) (s : State) : (beginTx p pt s).txLog = s.txLog := rfl
@[simp] theorem beginTx_peerGot (p : Bytes) (pt : TxPoint) (s : State) : (beginTx p pt s).peerGot = s.peerGot := rfl
@[simp] theorem beginTx_draws (p : Bytes) (pt : TxPoint) (s : State) : (beginTx p pt s).draws = s.draws := rfl
@[simp] theorem beginTx_inEpoch (p : Bytes) (pt : TxPoint) (s : State) : (beginTx p pt s).inEpoch = s.inEpoch := rfl
@[simp] theorem beginTx_outEpoch (p : Bytes) (pt : TxPoint) (s : State) : (beginTx p pt s).outEpoch = s.outEpoch := rfl
@[simp] theorem beginTx_outputsSettled (p : Bytes) (pt : TxPoint) (s : State) : (beginTx p pt s).outputsSettled = s.outputsSettled := rfl
@[simp] theorem beginTx_busData (p : Bytes) (pt : TxPoint) (s : State) : (beginTx p pt s).busData = s.busData := rfl
@[simp] theorem beginTx_agenda (p : Bytes) (pt : TxPoint) (s : State) : (beginTx p pt s).agenda = s.agenda := rfl

/-! ## deliverChunk -/

@[simp] theorem deliverChunk_params (n : Nat) (s : State) : (deliverChunk n s).params = s.params := rfl
@[simp] theorem deliverChunk_cfgHost (n : Nat) (s : State) : (deliverChunk n s).cfgHost = s.cfgHost := rfl
@[simp] theorem deliverChunk_cfgPort (n : Nat) (s : State) : (deliverChunk n s).cfgPort = s.cfgPort := rfl
@[simp] theorem deliverChunk_cfgTimeout (n : Nat) (s : State) : (deliverChunk n s).cfgTimeout = s.cfgTimeout := rfl
@[simp] theorem deliverChunk_phase (n : Nat) (s : State) : (deliverChunk n s).phase = s.phase := rfl
@[simp] theorem deliverChunk_curCmd (n : Nat) (s : State) : (deliverChunk n s).curCmd = s.curCmd := rfl
@[simp] theorem deliverChunk_link (n : Nat) (s : State) : (deliverChunk n s).link = s.link := rfl
@[simp] theorem deliverChunk_ackMode (n : Nat) (s : State) : (deliverChunk n s).ackMode = s.ackMode := rfl
@[simp] theorem deliverChunk_rxBuf (n : Nat) (s : State) : (deliverChunk n s).rxBuf = s.rxBuf ++ s.rxStream.take n := rfl
@[simp] theorem deliverChunk_tArm (n : Nat) (s : State) : (deliverChunk n s).tArm = s.tArm := rfl
@[simp] theorem deliverChunk_armed (n : Nat) (s : State) : (deliverChunk n s).armed = s.armed := rfl
@[simp] theorem deliverChunk_acc (n : Nat) (s : State) : (deliverChunk n s).acc = s.acc := rfl
@[simp] theorem deliverChunk_done (n : Nat) (s : State) : (deliverChunk n s).done = s.done := rfl
@[simp] theorem deliverChunk_err (n : Nat) (s : State) : (deliverChunk n s).err = s.err := rfl
@[simp] theorem deliverChunk_errCode (n : Nat) (s : State) : (deliverChunk n s).errCode = s.errCode := rfl
@[simp] theorem deliverChunk_arg (n : Nat) (s : State) : (deliverChunk n s).arg = s.arg := rfl
@[simp] theorem deliverChunk_result (n : Nat) (s : State) : (deliverChunk n s).result = s.result := rfl
@[simp] theorem deliverChunk_inLen (n : Nat) (s : State) : (deliverChunk n s).inLen = s.inLen := rfl
@[simp] theorem deliverChunk_outLen (n : Nat) (s : State) : (deliverChunk n s).outLen = s.outLen := rfl
@[simp] theorem deliverChunk_mem (n : Nat) (s : State) : (deliverChunk n s).mem = s.mem := rfl
@[simp] theorem deliverChunk_now (n : Nat) (s : State) : (deliverChunk n s).now = s.now := rfl
@[simp] theorem deliverChunk_transportOpen (n : Nat) (s : State) : (deliverChunk n s).transportOpen = s.transportOpen := rfl
@[simp] theorem deliverChunk_peerClosed (n : Nat) (s : State) : (deliverChunk n s).peerClosed = s.peerClosed := rfl
@[simp] theorem deliverChunk_rxStream (n : Nat) (s : State) : (deliverChunk n s).rxStream = s.rxStream.drop n := rfl
@[simp] theorem deliverChunk_txLog (n : Nat) (s : State) : (deliverChunk n s).txLog = s.txLog := rfl
@[simp] theorem deliverChunk_peerGot (n : Nat) (s : State) : (deliverChunk n s).peerGot = s.peerGot := rfl
@[simp] theorem deliverChunk_draws (n : Nat) (s : State) : (deliverChunk n s).draws = s.draws := rfl
@[simp] theorem deliverChunk_inEpoch (n : Nat) (s : State) : (deliverChunk n s).inEpoch = s.inEpoch := rfl
@[simp] theorem deliverChunk_outEpoch (n : Nat) (s : State) : (deliverChunk n s).outEpoch = s.outEpoch := rfl
@[simp] theorem deliverChunk_outputsSettled (n : Nat) (s : State) : (deliverChunk n s).outputsSettled = s.outputsSettled := rfl
@[simp] theorem deliverChunk_busData (n : Nat) (s : State) : (deliverChunk n s).busData = s.busData := rfl
@[simp] theorem deliverChunk_agenda (n : Nat) (s : State) : (deliverChunk n s).agenda = s.agenda := rfl

/-! ## tick -/

@[simp] theorem tick_params (n : Nat) (s : State) : (tick n s).params = s.params := rfl
@[simp] theorem tick_cfgHost (n : Nat) (s : State) : (tick n s).cfgHost = s.cfgHost := rfl
@[simp] theorem tick_cfgPort (n : Nat) (s : State) : (tick n s).cfgPort = s.cfgPort := rfl
@[simp] theorem tick_cfgTimeout (n : Nat) (s : State) : (tick n s).cfgTimeout = s.cfgTimeout := rfl
@[simp] theorem tick_phase (n : Nat) (s : State) : (tick n s).phase = s.phase := rfl
@[simp] theorem tick_curCmd (n : Nat) (s : State) : (tick n s).curCmd = s.curCmd := rfl
@[simp] theorem tick_link (n : Nat) (s : State) : (tick n s).link = s.link := rfl
@[simp] theorem tick_ackMode (n : Nat) (s : State) : (tick n s).ackMode = s.ackMode := rfl
@[simp] theorem tick_rxBuf (n : Nat) (s : State) : (tick n s).rxBuf = s.rxBuf := rfl
@[simp] theorem tick_tArm (n : Nat) (s : State) : (tick n s).tArm = s.tArm := rfl
@[simp] theorem tick_armed (n : Nat) (s : State) : (tick n s).armed = s.armed := rfl
@[simp] theorem tick_acc (n : Nat) (s : State) : (tick n s).acc = s.acc := rfl
@[simp] theorem tick_done (n : Nat) (s : State) : (tick n s).done = s.done := rfl
@[simp] theorem tick_err (n : Nat) (s : State) : (tick n s).err = s.err := rfl
@[simp] theorem tick_errCode (n : Nat) (s : State) : (tick n s).errCode = s.errCode := rfl
@[simp] theorem tick_arg (n : Nat) (s : State) : (tick n s).arg = s.arg := rfl
@[simp] theorem tick_result (n : Nat) (s : State) : (tick n s).result = s.result := rfl
@[simp] theorem tick_inLen (n : Nat) (s : State) : (tick n s).inLen = s.inLen := rfl
@[simp] theorem tick_outLen (n : Nat) (s : State) : (tick n s).outLen = s.outLen := rfl
@[simp] theorem tick_mem (n : Nat) (s : State) : (tick n s).mem = s.mem := rfl
@[simp] theorem tick_now (n : Nat) (s : State) : (tick n s).now = s.now + (n : Int) := rfl
@[simp] theorem tick_transportOpen (n : Nat) (s : State) : (tick n s).transportOpen = s.transportOpen := rfl
@[simp] theorem tick_peerClosed (n : Nat) (s : State) : (tick n s).peerClosed = s.peerClosed := rfl
@[simp] theorem tick_rxStream (n : Nat) (s : State) : (tick n s).rxStream = s.rxStream := rfl
@[simp] theorem tick_txLog (n : Nat) (s : State) : (tick n s).txLog = s.txLog := rfl
@[simp] theorem tick_peerGot (n : Nat) (s : State) : (tick n s).peerGot = s.peerGot := rfl
@[simp] theorem tick_draws (n : Nat) (s : State) : (tick n s).draws = s.draws := rfl
@[simp] theorem tick_inEpoch (n : Nat) (s : State) : (tick n s).inEpoch = s.inEpoch := rfl
@[simp] theorem tick_outEpoch (n : Nat) (s : State) : (tick n s).outEpoch = s.outEpoch := rfl
@[simp] theorem tick_outputsSettled (n : Nat) (s : State) : (tick n s).outputsSettled = s.outputsSettled := rfl
@[simp] theorem tick_busData (n : Nat) (s : State) : (tick n s).busData = s.busData := rfl
@[simp] theorem tick_agenda (n : Nat) (s : State) : (tick n s).agenda = s.agenda := rfl

/-! ## observe -/

@[simp] theorem observe_params (v : Word) (s : State) : (observe v s).params = s.params := rfl
@[simp] theorem observe_cfgHost (v : Word) (s : State) : (observe v s).cfgHost = s.cfgHost := rfl
@[simp] theorem observe_cfgPort (v : Word) (s : State) : (observe v s).cfgPort = s.cfgPort := rfl
@[simp] theorem observe_cfgTimeout (v : Word) (s : State) : (observe v s).cfgTimeout = s.cfgTimeout := rfl
@[simp] theorem observe_phase (v : Word) (s : State) : (observe v s).phase = s.phase := rfl
@[simp] theorem observe_curCmd (v : Word) (s : State) : (observe v s).curCmd = s.curCmd := rfl
@[simp] theorem observe_link (v : Word) (s : State) : (observe v s).link = s.link := rfl
@[simp] theorem observe_ackMode (v : Word) (s : State) : (observe v s).ackMode = s.ackMode := rfl
@[simp] theorem observe_rxBuf (v : Word) (s : State) : (observe v s).rxBuf = s.rxBuf := rfl
@[simp] theorem observe_tArm (v : Word) (s : State) : (observe v s).tArm = s.tArm := rfl
@[simp] theorem observe_armed (v : Word) (s : State) : (observe v s).armed = s.armed := rfl
@[simp] theorem observe_acc (v : Word) (s : State) : (observe v s).acc = s.acc := rfl
@[simp] theorem observe_done (v : Word) (s : State) : (observe v s).done = s.done := rfl
@[simp] theorem observe_err (v : Word) (s : State) : (observe v s).err = s.err := rfl
@[simp] theorem observe_errCode (v : Word) (s : State) : (observe v s).errCode = s.errCode := rfl
@[simp] theorem observe_arg (v : Word) (s : State) : (observe v s).arg = s.arg := rfl
@[simp] theorem observe_result (v : Word) (s : State) : (observe v s).result = s.result := rfl
@[simp] theorem observe_inLen (v : Word) (s : State) : (observe v s).inLen = s.inLen := rfl
@[simp] theorem observe_outLen (v : Word) (s : State) : (observe v s).outLen = s.outLen := rfl
@[simp] theorem observe_mem (v : Word) (s : State) : (observe v s).mem = s.mem := rfl
@[simp] theorem observe_now (v : Word) (s : State) : (observe v s).now = s.now := rfl
@[simp] theorem observe_transportOpen (v : Word) (s : State) : (observe v s).transportOpen = s.transportOpen := rfl
@[simp] theorem observe_peerClosed (v : Word) (s : State) : (observe v s).peerClosed = s.peerClosed := rfl
@[simp] theorem observe_rxStream (v : Word) (s : State) : (observe v s).rxStream = s.rxStream := rfl
@[simp] theorem observe_txLog (v : Word) (s : State) : (observe v s).txLog = s.txLog := rfl
@[simp] theorem observe_peerGot (v : Word) (s : State) : (observe v s).peerGot = s.peerGot := rfl
@[simp] theorem observe_draws (v : Word) (s : State) : (observe v s).draws = s.draws := rfl
@[simp] theorem observe_inEpoch (v : Word) (s : State) : (observe v s).inEpoch = s.inEpoch := rfl
@[simp] theorem observe_outEpoch (v : Word) (s : State) : (observe v s).outEpoch = s.outEpoch := rfl
@[simp] theorem observe_outputsSettled (v : Word) (s : State) : (observe v s).outputsSettled = s.outputsSettled := rfl
@[simp] theorem observe_busData (v : Word) (s : State) : (observe v s).busData = some v := rfl
@[simp] theorem observe_agenda (v : Word) (s : State) : (observe v s).agenda = s.agenda := rfl

end Sys2Proof.Machine
end

