-- ==== Sys2Proof/Laws/Memory.lean ====
section
/-! SUPPORT. Memory: a read after a write, the canonical form kept by every operation, and the bytes of the windows after a
completion and after a failure. -/
namespace Sys2Proof.Machine

namespace Memory

theorem load_store (m : List Host.Cell) (a : Nat) (b : Byte) (k : Nat) :
    load (store m a b) k = if a = k then some b else load m k := by
  induction m with
  | nil => simp [store, load]
  | cons c m ih =>
    obtain ⟨c, d⟩ := c
    simp only [store]
    split
    · rfl
    · split
      · subst_vars; simp only [load]; split <;> simp_all
      · simp only [load, ih]
        split <;> split <;> simp_all

theorem load_storeAll_below (bs : Bytes) (m : List Host.Cell) (a k : Nat) (h : k < a) :
    load (storeAll m a bs) k = load m k := by
  induction bs generalizing m a with
  | nil => rfl
  | cons b bs ih => rw [storeAll, ih _ _ (by omega), load_store, if_neg (by omega)]

theorem load_storeAll (bs : Bytes) (m : List Host.Cell) (a k : Nat) :
    load (storeAll m a bs) k = if a ≤ k ∧ k < a + bs.length then bs[k - a]? else load m k := by
  induction bs generalizing m a with
  | nil => rw [storeAll, if_neg (by simp only [List.length_nil]; omega)]
  | cons b bs ih =>
    rw [storeAll, ih, load_store]
    by_cases h : a = k
    · subst h; simp
    · by_cases h1 : a + 1 ≤ k
      · obtain ⟨d, rfl⟩ := Nat.exists_eq_add_of_le h1
        have e : a + 1 + d - a = d + 1 := by omega
        have e2 : a + 1 + d - (a + 1) = d := by omega
        simp only [e, e2, List.getElem?_cons_succ, List.length_cons]
        by_cases h2 : d < bs.length
        · rw [if_pos ⟨by omega, by omega⟩, if_pos ⟨by omega, by omega⟩]
        · rw [if_neg (by omega), if_neg (by omega), if_neg (by omega)]
      · rw [if_neg (by omega), if_neg h, if_neg (by omega)]

theorem load_clearFrom (m : List Host.Cell) (l k : Nat) :
    load (clearFrom m l) k = if k < l then load m k else none := by
  induction m with
  | nil => simp [clearFrom, load]
  | cons c m ih =>
    obtain ⟨c, d⟩ := c
    unfold clearFrom at ih ⊢
    by_cases h : c < l
    · simp only [List.filter_cons, h, decide_true, if_true, load, ih]
      split <;> simp_all
    · simp only [List.filter_cons, h, decide_false, Bool.false_eq_true, if_false, load, ih]
      split
      · rw [if_neg (by omega)]
      · rfl

/-- The canonical form as a pairwise fact. -/
theorem wf_iff (m : List Host.Cell) : wf m = true ↔ (m.map (·.1)).Pairwise (· < ·) := by
  induction m with
  | nil => simp [wf]
  | cons c m ih =>
    cases m with
    | nil => simp [wf]
    | cons d m =>
      rw [wf, Bool.and_eq_true, ih, decide_eq_true_eq]
      constructor
      · rintro ⟨h1, h2⟩
        simp only [List.map_cons, List.pairwise_cons] at h2 ⊢
        exact ⟨fun k hk => by
          rcases List.mem_cons.mp hk with h | h
          · exact h ▸ h1
          · exact lt_trans h1 (h2.1 k h), h2⟩
      · intro h
        simp only [List.map_cons, List.pairwise_cons] at h ⊢
        exact ⟨h.1 _ (by simp), h.2⟩

theorem mem_store (m : List Host.Cell) (a : Nat) (b : Byte) (c : Host.Cell) (h : c ∈ store m a b) :
    c = (a, b) ∨ c ∈ m := by
  induction m with
  | nil => simpa [store] using h
  | cons d m ih =>
    obtain ⟨d, e⟩ := d
    simp only [store] at h
    split at h
    · simpa using h
    · split at h
      · rcases List.mem_cons.mp h with h | h
        · exact .inl h
        · exact .inr (List.mem_cons_of_mem _ h)
      · rcases List.mem_cons.mp h with h | h
        · exact .inr (h ▸ List.mem_cons_self ..)
        · exact (ih h).imp id (List.mem_cons_of_mem _)

theorem wf_store (m : List Host.Cell) (a : Nat) (b : Byte) (h : wf m = true) : wf (store m a b) = true := by
  rw [wf_iff] at h ⊢
  induction m with
  | nil => simp [store]
  | cons d m ih =>
    obtain ⟨d, e⟩ := d
    simp only [List.map_cons, List.pairwise_cons] at h
    simp only [store]
    split
    · simp only [List.map_cons, List.pairwise_cons]
      exact ⟨fun k hk => by
        rcases List.mem_cons.mp hk with hk | hk
        · exact hk ▸ ‹_›
        · exact lt_trans ‹_› (h.1 k hk), h⟩
    · split
      · subst_vars; simpa using h
      · simp only [List.map_cons, List.pairwise_cons]
        refine ⟨fun k hk => ?_, ih h.2⟩
        obtain ⟨c, hc, rfl⟩ := List.mem_map.mp hk
        rcases mem_store m a b c hc with rfl | hc
        · simp only; omega
        · exact h.1 _ (List.mem_map_of_mem hc)

theorem wf_storeAll (bs : Bytes) (m : List Host.Cell) (a : Nat) (h : wf m = true) : wf (storeAll m a bs) = true := by
  induction bs generalizing m a with
  | nil => exact h
  | cons b bs ih => exact ih _ _ (wf_store _ _ _ h)

theorem wf_clearFrom (m : List Host.Cell) (l : Nat) (h : wf m = true) : wf (clearFrom m l) = true := by
  rw [wf_iff] at h ⊢
  exact h.sublist (List.filter_sublist.map _)

theorem mem_storeAll (bs : Bytes) (m : List Host.Cell) (a : Nat) (c : Host.Cell) (h : c ∈ storeAll m a bs) :
    (a ≤ c.1 ∧ c.1 < a + bs.length) ∨ c ∈ m := by
  induction bs generalizing m a with
  | nil => exact .inr h
  | cons b bs ih =>
    rcases ih _ _ h with h | h
    · exact .inl (by rw [List.length_cons]; omega)
    · rcases mem_store _ _ _ _ h with rfl | h
      · exact .inl (by rw [List.length_cons]; simp)
      · exact .inr h

theorem mem_clearFrom (m : List Host.Cell) (l : Nat) (c : Host.Cell) (h : c ∈ clearFrom m l) : c.1 < l ∧ c ∈ m := by
  obtain ⟨h1, h2⟩ := List.mem_filter.mp h
  exact ⟨by simpa using h2, h1⟩

end Memory

/-! ## Bytes of the windows -/

/-- A byte depends on memory and the two epochs only. -/
theorem byteAt_congr {s t : State} {a : Nat} (hm : t.mem = s.mem) (hi : t.inEpoch = s.inEpoch)
    (ho : t.outEpoch = s.outEpoch) : t.byteAt a = s.byteAt a := by
  simp only [State.byteAt, State.unlisted, hm, hi, ho]

theorem bytesAt_length (s : State) (a n : Nat) : (s.bytesAt a n).length = n := by
  induction n generalizing a with
  | zero => rfl
  | succ n ih => simp [State.bytesAt, ih]

theorem bytesAt_getElem? (s : State) (a n k : Nat) :
    (s.bytesAt a n)[k]? = if k < n then some (s.byteAt (a + k)) else none := by
  induction n generalizing a k with
  | zero => simp [State.bytesAt]
  | succ n ih =>
    cases k with
    | zero => simp [State.bytesAt]
    | succ k =>
      simp only [State.bytesAt, List.getElem?_cons_succ, ih]
      rw [show a + 1 + k = a + (k + 1) by omega]
      simp

/-- Reading where a sequence stands gives the sequence. -/
theorem bytesAt_eq (s : State) (bs : Bytes) (a : Nat) (h : ∀ k, k < bs.length → bs[k]? = some (s.byteAt (a + k))) :
    s.bytesAt a bs.length = bs := by
  apply List.ext_getElem?
  intro k
  rw [bytesAt_getElem?]
  split
  · exact (h k ‹_›).symm
  · rw [List.getElem?_eq_none (by omega)]

/-- A byte after a stored sequence. -/
theorem byteAt_storeAll {s t : State} {a : Nat} {bs : Bytes} (hm : t.mem = Memory.storeAll s.mem a bs)
    (hi : t.inEpoch = s.inEpoch) (ho : t.outEpoch = s.outEpoch) (k : Nat) :
    t.byteAt k = if a ≤ k ∧ k < a + bs.length then bs.getD (k - a) 0 else s.byteAt k := by
  simp only [State.byteAt, State.unlisted, hm, hi, ho, Memory.load_storeAll]
  split
  · have : k - a < bs.length := by omega
    simp [List.getElem?_eq_getElem this]
  · rfl

/-- After a failure every byte below the OUT window is as before. -/
theorem byteAt_fail (e : Err) (r : Word) (s : State) {a : Nat} (h : a < outBase) :
    (fail e r s).byteAt a = s.byteAt a := by
  simp only [State.byteAt, State.unlisted, fail_mem, fail_inEpoch, fail_outEpoch, Memory.load_clearFrom, if_pos h]

/-- After a completion a byte is the result's in OUT[0..|out|) and as before elsewhere. -/
theorem byteAt_finish (out : Bytes) (r : Word) (s : State) (k : Nat) :
    (finish out r s).byteAt k =
      if outBase ≤ k ∧ k < outBase + out.length then out.getD (k - outBase) 0 else s.byteAt k :=
  byteAt_storeAll (s := s) (t := finish out r s) rfl rfl rfl k

/-- OUT[0:OUT_LEN) after a completion is the result. -/
theorem outBytes_finish (out : Bytes) (r : Word) (s : State) (h : out.length < 2 ^ 32) :
    (finish out r s).outBytes = out := by
  have hl : (finish out r s).outLen.toNat = out.length := by
    simp only [finish_outLen, BitVec.toNat_ofNat]; exact Nat.mod_eq_of_lt h
  unfold State.outBytes
  rw [hl]
  apply bytesAt_eq
  intro k hk
  rw [byteAt_finish, if_pos ⟨by omega, by omega⟩, Nat.add_sub_cancel_left]
  simp [List.getElem?_eq_getElem hk]

end Sys2Proof.Machine
end

