-- ==== Sys2Proof/Laws/Completion.lean ====
section
/-! SUPPORT. What the shared ends of a command leave: Fail and Complete in the terms of Safety, and the frames' own small
laws. -/
namespace Sys2Proof.Safety
open Sys2Proof.Machine

/-! ## Frames compose -/

theorem SameFixed.trans {s t u : State} (h : SameFixed s t) (k : SameFixed t u) : SameFixed s u :=
  ⟨k.1.trans h.1, k.2.trans h.2, k.3.trans h.3, k.4.trans h.4, k.5.trans h.5, k.6.trans h.6, k.7.trans h.7,
   fun a ha => (k.8 a ha).trans (h.8 a ha), k.9.trans h.9, k.10.trans h.10, k.11.trans h.11, k.12.trans h.12⟩

theorem SameLinkSide.trans {s t u : State} (h : SameLinkSide s t) (k : SameLinkSide t u) : SameLinkSide s u :=
  ⟨k.1.trans h.1, k.2.trans h.2, k.3.trans h.3, k.4.trans h.4, k.5.trans h.5⟩

theorem SameTransport.trans {s t u : State} (h : SameTransport s t) (k : SameTransport t u) : SameTransport s u :=
  ⟨k.1.trans h.1, k.2.trans h.2, k.3.trans h.3, k.4.trans h.4, k.5.trans h.5⟩

end Sys2Proof.Safety

namespace Sys2Proof.Machine
open Sys2Proof.Safety

/-! ## Frames -/

theorem sameFixed_refl (s : State) : SameFixed s s := by constructor <;> simp
theorem sameLinkSide_refl (s : State) : SameLinkSide s s := by constructor <;> rfl
theorem sameTransport_refl (s : State) : SameTransport s s := by constructor <;> rfl
theorem sameOutputs_refl (s : State) : SameOutputs s s := by constructor <;> simp

/-! ## Fail (40_command_cycle.md rule R125) -/

theorem failed_fail (e : Err) (r : Word) (s : State) : Failed (fail e r s) e.code r := by constructor <;> rfl

theorem sameFixed_fail (e : Err) (r : Word) (s : State) : SameFixed s (fail e r s) := by
  constructor <;> first | rfl | exact fun a ha => byteAt_fail e r s ha

theorem sameLinkSide_fail (e : Err) (r : Word) (s : State) : SameLinkSide s (fail e r s) := by constructor <;> rfl

theorem sameTransport_fail (e : Err) (r : Word) (s : State) : SameTransport s (fail e r s) := by constructor <;> rfl

/-! ## Complete (40_command_cycle.md rules R123, R124) -/

theorem sameFixed_finish (out : Bytes) (r : Word) (s : State) : SameFixed s (finish out r s) := by
  constructor <;>
    first | rfl | exact fun a ha => by rw [byteAt_finish, if_neg (by omega)]

theorem sameLinkSide_finish (out : Bytes) (r : Word) (s : State) : SameLinkSide s (finish out r s) := by
  constructor <;> rfl

theorem sameTransport_finish (out : Bytes) (r : Word) (s : State) : SameTransport s (finish out r s) := by
  constructor <;> rfl

theorem sameOutsideOut_finish (out : Bytes) (r : Word) (s : State) : SameOutsideOut s (finish out r s) out.length :=
  fun a ha => by rw [byteAt_finish, if_neg (by omega)]

theorem completed_finish (out : Bytes) (r : Word) (s : State) (h : out.length < 2 ^ 32) :
    Completed (finish out r s) out r :=
  ⟨outBytes_finish out r s h, by simp only [finish_outLen, BitVec.toNat_ofNat]; exact Nat.mod_eq_of_lt h,
   rfl, rfl, rfl, rfl, rfl, rfl⟩

/-- Complete does one of two things. -/
theorem complete_cases (out : Bytes) (r : Word) (s : State) :
    (out.length ≤ s.params.outCap ∧ complete out r s = finish out r s) ∨
      (s.params.outCap < out.length ∧ complete out r s = fail .outOverflow 0 s) := by
  by_cases h : s.params.outCap < out.length
  · exact .inr ⟨h, if_pos h⟩
  · exact .inl ⟨by omega, if_neg h⟩

theorem complete_of_le {out : Bytes} {r : Word} {s : State} (h : out.length ≤ s.params.outCap) :
    complete out r s = finish out r s := if_neg (by omega)

theorem complete_of_lt {out : Bytes} {r : Word} {s : State} (h : s.params.outCap < out.length) :
    complete out r s = fail .outOverflow 0 s := if_pos h

theorem complete_nil (r : Word) (s : State) : complete [] r s = finish [] r s := complete_of_le (by simp)

theorem sameFixed_complete (out : Bytes) (r : Word) (s : State) : SameFixed s (complete out r s) := by
  rcases complete_cases out r s with ⟨-, h⟩ | ⟨-, h⟩ <;> rw [h]
  exacts [sameFixed_finish .., sameFixed_fail ..]

theorem sameLinkSide_complete (out : Bytes) (r : Word) (s : State) : SameLinkSide s (complete out r s) := by
  rcases complete_cases out r s with ⟨-, h⟩ | ⟨-, h⟩ <;> rw [h]
  exacts [sameLinkSide_finish .., sameLinkSide_fail ..]

theorem sameTransport_complete (out : Bytes) (r : Word) (s : State) : SameTransport s (complete out r s) := by
  rcases complete_cases out r s with ⟨-, h⟩ | ⟨-, h⟩ <;> rw [h]
  exacts [sameTransport_finish .., sameTransport_fail ..]

/-! ## Windows -/

/-- The little-endian number of a window's bytes, from the bytes and from memory. -/
theorem leNat_bytesAt (s : State) (a n : Nat) : leNat (s.bytesAt a n) = littleEndian s a n := by
  induction n generalizing a with
  | zero => rfl
  | succ n ih => rw [State.bytesAt, leNat, ih, littleEndian]

theorem littleEndian_lt (s : State) (a n : Nat) : littleEndian s a n < 256 ^ n := by
  induction n generalizing a with
  | zero => simp [littleEndian]
  | succ n ih =>
    have hb := (s.byteAt a).isLt
    have hn := ih (a + 1)
    simp only [littleEndian, pow_succ]
    omega

/-! ## Well-formed parameters -/

/-- The facts well-formed parameters give (00_scope.md rules R4, R5; 20_memory.md rule R60). -/
theorem wf_facts {p : Params} (h : p.wf = true) :
    2 ≤ p.maxPacketLen ∧ p.maxPacketLen + 2 ≤ p.outCap ∧ 1 ≤ p.rxChunkMax ∧ 1 ≤ p.ticksPerUnit ∧ p.inCap ≤ 2 ^ 24 ∧
      p.outCap ≤ 2 ^ 24 ∧ p.rxChunkMax < 2 ^ 32 ∧ p.ticksPerUnit < 2 ^ 32 ∧ 1 ≤ p.defaultRxTimeout := by
  simpa [Params.wf, and_assoc] using h

/-- A result that fits completes. -/
theorem completed_complete {out : Bytes} {r : Word} {s : State} (hp : s.params.wf = true)
    (h : out.length ≤ s.params.outCap) :
    Completed (complete out r s) out r ∧ SameOutsideOut s (complete out r s) out.length := by
  have := (wf_facts hp).2.2.2.2.2.1
  rw [complete_of_le h]
  exact ⟨completed_finish _ _ _ (by omega), sameOutsideOut_finish out r s⟩

end Sys2Proof.Machine
end

