-- ==== Sys2Proof/Laws/Decode.lean ====
section
/-! SUPPORT. The command word's fields: those of an encoded instruction, a word is its fields, and what the rows of the decoder
accept. -/
namespace Sys2Proof

/-! ## Byte order -/

theorem leNat_leBytes_four (v : Nat) (h : v < 2 ^ 32) : leNat (leBytes 4 v) = v := by
  simp [leBytes, leNat]; omega

/-- Decoding four little-endian bytes is decoding the word they spell. -/
theorem decodeBytes_leBytes (w : Word) (rest : Bytes) :
    decodeBytes (leBytes 4 w.toNat ++ rest) = (decodeWord w).map (·, rest) := by
  have h : leBytes 4 w.toNat = [BitVec.ofNat 8 w.toNat, BitVec.ofNat 8 (w.toNat / 256),
      BitVec.ofNat 8 (w.toNat / 256 / 256), BitVec.ofNat 8 (w.toNat / 256 / 256 / 256)] := rfl
  rw [h]
  simp only [List.cons_append, List.nil_append, decodeBytes]
  rw [← h, leNat_leBytes_four _ w.isLt]
  simp

/-! ## Fields -/

theorem encode_opc (i : Instr) : (encode i).opc = i.opcode := by
  cases i <;> first | decide | (rename_i f; cases f <;> decide) | (rename_i f g; cases f <;> cases g <;> decide)

theorem encode_f0 (i : Instr) : (encode i).f0 = i.flag0 := by
  cases i <;> first | decide | (rename_i f; cases f <;> decide) | (rename_i f g; cases f <;> cases g <;> decide)

theorem encode_f1 (i : Instr) : (encode i).f1 = i.flag1 := by
  cases i <;> first | decide | (rename_i f; cases f <;> decide) | (rename_i f g; cases f <;> cases g <;> decide)

theorem encode_reserved (i : Instr) : (encode i).reserved = 0 := by
  cases i <;> first | decide | (rename_i f; cases f <;> decide) | (rename_i f g; cases f <;> cases g <;> decide)

/-- A word is its four fields. -/
theorem word_ext {w v : Word} (h0 : w.opc = v.opc) (h1 : w.f0 = v.f0) (h2 : w.f1 = v.f1)
    (h3 : w.reserved = v.reserved) : w = v := by
  apply BitVec.eq_of_getLsbD_eq
  intro k hk
  by_cases a : k < 8
  · have := congrArg (fun x => x.getLsbD k) h0
    simpa [Word.opc, BitVec.getLsbD_extractLsb', a] using this
  · by_cases b : k = 8
    · subst b; exact h1
    · by_cases c : k = 9
      · subst c; exact h2
      · have := congrArg (fun x => x.getLsbD (k - 10)) h3
        simp only [Word.reserved, BitVec.getLsbD_extractLsb', show k - 10 < 22 by omega,
          show 10 + (k - 10) = k by omega] at this
        simpa using this

/-! ## What a row accepts -/

theorem noFlags_ok {i j : Instr} {f0 f1 : Bool} (h : noFlags i f0 f1 = .ok j) :
    j = i ∧ f0 = false ∧ f1 = false := by
  cases f0 <;> cases f1 <;> simp_all [noFlags]

theorem onlyF0_ok {i : Bool → Instr} {j : Instr} {f0 f1 : Bool} (h : onlyF0 i f0 f1 = .ok j) :
    j = i f0 ∧ f1 = false := by
  cases f1 <;> simp_all [onlyF0]

end Sys2Proof
end

