-- ==== Sys2Proof/Laws/PerInstr.lean ====
section
/-! SUPPORT. Facts about every instruction as syntax, one lemma per constructor. -/
namespace Sys2Proof.Laws.RoundTrip

/-- Decoding an instruction's own command word gives it back (30_encoding.md rules R80, R84). -/
def Statement (i : Instr) : Prop := decodeWord (encode i) = .ok i

theorem encodePayload : Statement .encodePayload := rfl
theorem decodePayload : Statement .decodePayload := rfl
theorem computeChecksum : Statement .computeChecksum := rfl
theorem createPacket (f : Bool) : Statement (.createPacket f) := by cases f <;> rfl
theorem splitPacket : Statement .splitPacket := rfl
theorem validatePacket : Statement .validatePacket := rfl
theorem connect : Statement .connect := rfl
theorem disconnect : Statement .disconnect := rfl
theorem setAckMode (f : Bool) : Statement (.setAckMode f) := by cases f <;> rfl
theorem sendPacket (f g : Bool) : Statement (.sendPacket f g) := by cases f <;> cases g <;> rfl
theorem checkAck : Statement .checkAck := rfl
theorem sendAck : Statement .sendAck := rfl
theorem sendNack : Statement .sendNack := rfl
theorem sendInterrupt : Statement .sendInterrupt := rfl
theorem recvPacket (f : Bool) : Statement (.recvPacket f) := by cases f <;> rfl
theorem recvAndDecode : Statement .recvAndDecode := rfl

end Sys2Proof.Laws.RoundTrip
end

