-- ==== Sys2Proof/Laws/RxPath.lean ====
section
/-! SUPPORT. What the shared procedures of the link commands can do, case by case: the link and operand checks, the write
after its wait, Refill before and after its wait, AckWait's byte and the frame scan. -/
namespace Sys2Proof.Machine
open Sys2Proof.Safety

/-! ## The checks at a command's start -/

theorem requireLink_of_link {k : State → State} {s : State} (h : s.link = true) : requireLink k s = k s := if_pos h

theorem requireLink_of_no_link {k : State → State} {s : State} (h : s.link = false) :
    requireLink k s = fail .notConnected 0 s := if_neg (by simp [h])

theorem requireLink_cases (k : State → State) (s : State) :
    (s.link = true ∧ requireLink k s = k s) ∨ (s.link = false ∧ requireLink k s = fail .notConnected 0 s) := by
  cases h : s.link
  · exact .inr ⟨rfl, requireLink_of_no_link h⟩
  · exact .inl ⟨rfl, requireLink_of_link h⟩

theorem requireInLen_of_ok {k : State → State} {s : State} (h : InLenOk s) : requireInLen k s = k s :=
  if_neg (not_lt.mpr h)

theorem requireInLen_of_not_ok {k : State → State} {s : State} (h : ¬ InLenOk s) :
    requireInLen k s = fail .inLenRange 0 s := if_pos (not_le.mp h)

theorem requireInLen_cases (k : State → State) (s : State) :
    (InLenOk s ∧ requireInLen k s = k s) ∨ (¬ InLenOk s ∧ requireInLen k s = fail .inLenRange 0 s) := by
  by_cases h : InLenOk s
  · exact .inl ⟨h, requireInLen_of_ok h⟩
  · exact .inr ⟨h, requireInLen_of_not_ok h⟩

/-! ## Waits -/

theorem afterTx_cases (k : State → State) (answer : Option TxAnswer) (s : State) :
    (answer = none ∧ afterTx k answer s = s) ∨ (answer = some .done ∧ afterTx k answer s = k s) ∨
      (answer = some .failed ∧ afterTx k answer s = fail .ioError 0 s) := by
  rcases answer with _ | _ | _ <;> simp [afterTx]

/-- A wait that the environment has not answered goes on, and the step changes nothing (40_command_cycle.md rule R127). -/
@[simp] theorem afterTx_none (k : State → State) (s : State) : afterTx k none s = s := rfl

@[simp] theorem afterRefill_none (k : State → State) (pt : ReadPoint) (s : State) : afterRefill k pt none s = s := rfl

theorem waitBound_none {s : State} (h : remaining s ≤ 0) : waitBound s = none := if_pos h

theorem waitBound_some {s : State} (h : 0 < remaining s) :
    waitBound s = some (if remaining s < (s.params.ticksPerUnit : Int) then (s.params.ticksPerUnit : Int)
      else remaining s) := by
  simp only [waitBound, if_neg (not_le.mpr h)]
  split <;> rfl

theorem refill_cases (pt : ReadPoint) (s : State) :
    (remaining s ≤ 0 ∧ refill pt s = readFail pt .deadlineExpired s) ∨
      (0 < remaining s ∧ refill pt s = { s with
        phase := .refilling pt s.now
          (if remaining s < (s.params.ticksPerUnit : Int) then (s.params.ticksPerUnit : Int) else remaining s) none }) := by
  by_cases h : remaining s ≤ 0
  · exact .inl ⟨h, by rw [refill, waitBound_none h]⟩
  · exact .inr ⟨by omega, by rw [refill, waitBound_some (by omega)]⟩

/-- How a refill's answer ends the command, as an error, when it does. -/
theorem afterRefill_cases (k : State → State) (pt : ReadPoint) (answer : Option RxAnswer) (s : State) :
    (afterRefill k pt answer s = s ∧
      (answer = none ∨ (answer = some .endOfStream ∧ s.params.eof = .timeoutAtDeadline ∧ 0 < remaining s))) ∨
    (answer = some .data ∧ afterRefill k pt answer s = k s) ∨
    (∃ e, afterRefill k pt answer s = readFail pt e s ∧
      ((answer = some .expired ∧ e = .waitExpired) ∨ (answer = some .error ∧ e = .ioError) ∨
       (answer = some .endOfStream ∧ s.params.eof = .transportError ∧ e = .endOfStream) ∨
       (answer = some .endOfStream ∧ s.params.eof = .timeoutAtDeadline ∧ remaining s ≤ 0 ∧ e = .deadlineExpired))) := by
  rcases answer with _ | _ | _ | _ | _
  · exact .inl ⟨rfl, .inl rfl⟩
  · exact .inr (.inl ⟨rfl, rfl⟩)
  · exact .inr (.inr ⟨_, rfl, .inl ⟨rfl, rfl⟩⟩)
  · exact .inr (.inr ⟨_, rfl, .inr (.inl ⟨rfl, rfl⟩)⟩)
  · cases h : s.params.eof
    · by_cases hr : remaining s ≤ 0
      · exact .inr (.inr ⟨.deadlineExpired, by simp [afterRefill, h, hr], by simp [hr]⟩)
      · exact .inl ⟨by simp [afterRefill, h, hr], .inr ⟨rfl, rfl, by omega⟩⟩
    · exact .inr (.inr ⟨.endOfStream, by simp [afterRefill, h], by simp⟩)

/-- A failed read is a Fail on a state that differs only in what a failed scan loses. -/
theorem readFail_ack (e : Err) (s : State) : readFail .ack e s = fail e 0 s := rfl

theorem readFail_scan (pt : ScanPoint) (e : Err) (s : State) : readFail (.scan pt) e s = scanFail e 0 s := rfl

/-! ## A failed scan (44_packet_exchange.md rule R252) -/

theorem failed_scanFail (e : Err) (r : Word) (s : State) : Failed (scanFail e r s) e.code r := failed_fail ..

theorem sameFixed_scanFail (e : Err) (r : Word) (s : State) : SameFixed s (scanFail e r s) :=
  SameFixed.trans (by constructor <;> intros <;> rfl) (sameFixed_fail e r _)

theorem sameTransport_scanFail (e : Err) (r : Word) (s : State) : SameTransport s (scanFail e r s) := by
  constructor <;> rfl

@[simp] theorem scanFail_link (e : Err) (r : Word) (s : State) : (scanFail e r s).link = s.link := rfl
@[simp] theorem scanFail_ackMode (e : Err) (r : Word) (s : State) : (scanFail e r s).ackMode = s.ackMode := rfl
@[simp] theorem scanFail_acc (e : Err) (r : Word) (s : State) : (scanFail e r s).acc = [] := rfl
@[simp] theorem scanFail_tArm (e : Err) (r : Word) (s : State) : (scanFail e r s).tArm = s.tArm := rfl

theorem scanFail_rxBuf_length (e : Err) (r : Word) (s : State) :
    (scanFail e r s).rxBuf.length ≤ s.params.rxChunkMax := by
  rw [show (scanFail e r s).rxBuf = (Config.freeBytes s.draws).take s.params.rxChunkMax from rfl, List.length_take]
  exact Nat.min_le_left ..

/-! ## The frame scan (44_packet_exchange.md rule R246) -/

/-- The scan takes bytes from the front, in order, and its result is in the shape of the rule. -/
theorem scan_spec (max : Nat) (buf : Bytes) (pt : ScanPoint) (acc : Bytes) (hm : 2 ≤ max)
    (h : ScanOk (max + 1) acc pt ∧ (pt ≠ .body → ScanOk max acc pt)) :
    match scan max buf pt acc with
    | .frame p rest => taken acc pt ++ buf = p ++ rest ∧ FrameShape max p
    | .more pt' acc' => taken acc pt ++ buf = taken acc' pt' ∧ ScanOk max acc' pt'
    | .badSop b => pt = .sop ∧ ∃ rest, buf = b :: rest ∧ b ≠ 0x24
    | .oversized => ∃ body rest, taken acc pt ++ buf = 0x24 :: body ++ rest ∧ 0x23 ∉ body ∧ body.length + 1 = max := by
  induction buf generalizing pt acc with
  | nil =>
    cases pt with
    | sop => simpa [scan, taken] using h.2 (by simp)
    | ck0 => simpa [scan, taken] using h.2 (by simp)
    | ck1 c0 => simpa [scan, taken] using h.2 (by simp)
    | body =>
      obtain ⟨body, rfl, hb, hl⟩ := h.1
      simp only [scan]
      by_cases hs : max ≤ (0x24 :: body).length
      · rw [if_pos hs]
        exact ⟨body, [], by simp [taken], hb, by simp only [List.length_cons] at *; omega⟩
      · rw [if_neg hs]
        exact ⟨by simp [taken], body, rfl, hb, by omega⟩
  | cons b buf ih =>
    cases pt with
    | sop =>
      simp only [scan]
      by_cases hb : b = SOP
      · rw [if_pos hb]
        have := ih .body [SOP] ⟨⟨[], rfl, by simp, by simp; omega⟩, by simp⟩
        have ha : acc = [] := h.1
        subst ha hb
        revert this
        cases scan max buf .body [SOP] <;> simp [taken]
      · rw [if_neg hb]
        exact ⟨trivial, buf, rfl, hb⟩
    | body =>
      obtain ⟨body, rfl, hb, hl⟩ := h.1
      simp only [scan]
      by_cases hs : max ≤ (0x24 :: body).length
      · rw [if_pos hs]
        exact ⟨body, b :: buf, by simp [taken], hb, by simp only [List.length_cons] at *; omega⟩
      · rw [if_neg hs]
        by_cases he : b = EOP
        · rw [if_pos he]
          have hs' : ScanOk max (0x24 :: body ++ [b]) .ck0 := ⟨body, by rw [he]; rfl, hb, by simp at *; omega⟩
          have hs2 : ScanOk (max + 1) (0x24 :: body ++ [b]) .ck0 := ⟨body, by rw [he]; rfl, hb, by simp at *; omega⟩
          have := ih .ck0 (0x24 :: body ++ [b]) ⟨hs2, fun _ => hs'⟩
          revert this
          cases scan max buf .ck0 (0x24 :: body ++ [b]) <;> simp [taken]
        · rw [if_neg he]
          have hs2 : ScanOk (max + 1) (0x24 :: body ++ [b]) .body :=
            ⟨body ++ [b], rfl, by simp; exact ⟨hb, fun k => he k.symm⟩, by simp at *; omega⟩
          have := ih .body (0x24 :: body ++ [b]) ⟨hs2, by simp⟩
          revert this
          cases scan max buf .body (0x24 :: body ++ [b]) <;> simp [taken]
    | ck0 =>
      simp only [scan]
      have := ih (.ck1 b) acc ⟨h.1, fun _ => h.2 (by simp)⟩
      revert this
      cases scan max buf (.ck1 b) acc <;> simp [taken]
    | ck1 c0 =>
      obtain ⟨body, rfl, hb, hl⟩ := h.2 (by simp)
      exact ⟨by simp [taken], body, c0, b, by simp, hb, by simp at hl; omega⟩

/-- A receive that scans at its next step runs one scan, from its point on, in a state that differs from its own in the window
and ACC alone. -/
theorem exec_of_scansAfter {s : State} {held : Bytes} (h : ScansAfter s held) :
    ∃ pt u, held = taken u.acc pt ∧ ScanOk s.params.maxPacketLen u.acc pt ∧
      u = { s with acc := u.acc, armed := true, tArm := windowStart s } ∧
      (∀ v, exec (.recvPacket v) s = .next (scanFrom (recvPacketFrame v) pt u)) ∧
      exec .recvAndDecode s = .next (scanFrom (validateAndAck deliverDecoded) pt u) := by
  rcases h with ⟨hp, hl, rfl⟩ | ⟨pt, t0, w, hp, ha, ho, rfl⟩
  · refine ⟨.sop, arm { s with acc := [] }, rfl, rfl, by simp [arm, windowStart, hp], fun v => ?_, ?_⟩
    · simp [exec, execRecvPacket, hp, requireLink_of_link hl, recvFrame]
    · simp [exec, execRecvAndDecode, hp, requireLink_of_link hl, recvFrame]
  · refine ⟨pt, s, rfl, ho, ?_, fun v => by simp [exec, execRecvPacket, hp, afterRefill],
      by simp [exec, execRecvAndDecode, hp, afterRefill]⟩
    rw [show windowStart s = s.tArm from if_neg (by simp [hp])]
    cases s
    simp only at ha ⊢
    rw [ha]

/-- What a scan leaves after a frame is the end of what it was given. -/
theorem scan_frame_suffix {max : Nat} {buf : Bytes} {pt : ScanPoint} {acc p rest : Bytes}
    (h : scan max buf pt acc = .frame p rest) : rest <:+ buf := by
  induction buf generalizing pt acc with
  | nil => cases pt <;> simp only [scan] at h <;> first | cases h | (split at h <;> cases h)
  | cons b buf ih =>
    cases pt with
    | sop =>
      simp only [scan] at h
      split at h
      · exact (ih h).trans (List.suffix_cons ..)
      · cases h
    | body =>
      simp only [scan] at h
      split at h
      · cases h
      · exact (ih h).trans (List.suffix_cons ..)
    | ck0 => exact (ih h).trans (List.suffix_cons ..)
    | ck1 c0 => cases h; exact List.suffix_cons ..

end Sys2Proof.Machine
end

