-- ==== Sys2Proof/Laws/Wire.lean ====
section
/-! SUPPORT. The codec's pure functions: Encode byte by byte, Decode's cases as equations, and Split and Validate of a packet
given by its parts. -/
namespace Sys2Proof.Machine
open Sys2Proof.Safety

/-! ## Encode -/

theorem encodeBytesOf_eq_flatMap (d : Bytes) : encodeBytesOf d = d.flatMap escaped := by
  induction d with
  | nil => rfl
  | cons b d ih =>
    simp only [encodeBytesOf, List.flatMap_cons, escaped, mustEscape, ESC, SOP, EOP, escapeMask, ih, Bool.or_eq_true,
      beq_iff_eq, or_assoc]
    split <;> simp

/-! ## Decode (41_codec.md rule R141), case by case -/

/-- What a count byte is. -/
theorem countOf_cases (c : Byte) :
    (LegalCount c ∧ countOf c = .ok (c.toNat - 28)) ∨
      ((c = 0x23 ∨ c = 0x24) ∧ countOf c = .error .rleCountFraming) ∨
      ((c.toNat < 0x20 ∨ 0x7E < c.toNat) ∧ countOf c = .error .rleCountRange) := by
  by_cases h : c = EOP ∨ c = SOP
  · exact .inr (.inl ⟨h, if_pos h⟩)
  · by_cases h2 : c.toNat < 0x20 ∨ 0x7E < c.toNat
    · exact .inr (.inr ⟨h2, by rw [countOf, if_neg h, if_pos h2]⟩)
    · exact .inl ⟨⟨by omega, by omega, fun k => h (.inl k), fun k => h (.inr k)⟩,
        by rw [countOf, if_neg h, if_neg h2]; rfl⟩

theorem decodeBytesOf_escape (x : Byte) (e : Bytes) :
    decodeBytesOf (0x7D :: x :: e) = (decodeBytesOf e).map ((x ^^^ 0x20) :: ·) := by
  conv_lhs => unfold decodeBytesOf
  rfl

theorem decodeBytesOf_run {b : Byte} (c : Byte) (e : Bytes) (h : b ≠ 0x7D) :
    decodeBytesOf (b :: 0x2A :: c :: e) =
      match countOf c with
      | .error k => .error k
      | .ok n => (decodeBytesOf e).map (List.replicate n b ++ ·) := by
  have h' : ¬ b = ESC := h
  conv_lhs => unfold decodeBytesOf
  rw [if_neg h']; rfl

theorem decodeBytesOf_run_end {b : Byte} (h : b ≠ 0x7D) : decodeBytesOf [b, 0x2A] = .error .rleMissingCount := by
  have h' : ¬ b = ESC := h
  unfold decodeBytesOf; rw [if_neg h']; rfl

theorem decodeBytesOf_last {b : Byte} (h : b ≠ 0x7D) : decodeBytesOf [b] = .ok [b] := by
  have h' : ¬ b = ESC := h
  unfold decodeBytesOf; rw [if_neg h']

theorem decodeBytesOf_literal {b x : Byte} (e : Bytes) (h : b ≠ 0x7D) (hx : x ≠ 0x2A) :
    decodeBytesOf (b :: x :: e) = (decodeBytesOf (x :: e)).map (b :: ·) := by
  have h' : ¬ b = ESC := h
  have h2 : ¬ x = RLE := hx
  conv_lhs => unfold decodeBytesOf
  rw [if_neg h']; simp only [if_neg h2]

/-! ## Packets given by their parts -/

theorem splitOf_parts (first hash c0 c1 : Byte) (payload : Bytes) :
    splitOf (first :: payload ++ [hash, c0, c1]) = ⟨first, payload, hash, [c0, c1]⟩ := by
  simp [splitOf]

theorem validateOf_parts (policy : HexCasePolicy) (first hash c0 c1 : Byte) (payload : Bytes) :
    validateOf policy (first :: payload ++ [hash, c0, c1]) =
      if first ≠ 0x24 then some .pktBadStart
      else if hash ≠ 0x23 then some .pktBadDelim
      else if 0x24 ∈ payload ∨ 0x23 ∈ payload then some .pktPayloadFraming
      else if ckSyntaxOk policy [c0, c1] = false then some .pktCkSyntax
      else if ckEqual policy [c0, c1] payload = false then some .pktCkMismatch else none := by
  have hl : ¬ (first :: payload ++ [hash, c0, c1]).length < 4 := by simp
  have hm : (payload.any fun b => b == (0x24 : Byte) || b == (0x23 : Byte)) = true ↔
      ((0x24 : Byte) ∈ payload ∨ (0x23 : Byte) ∈ payload) := by
    simp only [List.any_eq_true, Bool.or_eq_true, beq_iff_eq]
    constructor
    · rintro ⟨x, h, rfl | rfl⟩ <;> simp_all
    · rintro (h | h); exacts [⟨_, h, .inl rfl⟩, ⟨_, h, .inr rfl⟩]
  unfold validateOf
  simp only [splitOf_parts, if_neg hl, SOP, EOP, hm, Bool.not_eq_true']

end Sys2Proof.Machine
end

