-- ==== Sys2Proof/Tests/Slice0.lean ====
section
/-! SUPPORT. Tests on small states, their expected results taken from the spec (95_test_vectors.md unless a comment names
another file), and for every statement with hypotheses a witness that meets them. -/
namespace Sys2Proof.Tests
open Sys2Proof.Machine Sys2Proof.Safety

/-! ## Well-formedness: one ill-formed term for each check, each refused -/

/-- The parameters of 95_test_vectors.md. -/
def ps : Params := Config.resetParams

theorem test_wf_params : ps.wf = true := by decide
theorem test_wf_maxPacketLen : Params.wf { ps with maxPacketLen := 1 } = false := by decide
theorem test_wf_outCap_below_frame : Params.wf { ps with outCap := 65 } = false := by decide
theorem test_wf_rxChunkMax_zero : Params.wf { ps with rxChunkMax := 0 } = false := by decide
theorem test_wf_ticksPerUnit_zero : Params.wf { ps with ticksPerUnit := 0 } = false := by decide
theorem test_wf_defaultRxTimeout_zero : Params.wf { ps with defaultRxTimeout := 0 } = false := by decide
theorem test_wf_inCap_window : Params.wf { ps with inCap := 2 ^ 24 + 1 } = false := by decide
theorem test_wf_outCap_window : Params.wf { ps with outCap := 2 ^ 24 + 1 } = false := by decide
theorem test_wf_rxChunkMax_width : Params.wf { ps with rxChunkMax := 2 ^ 32 } = false := by decide
theorem test_wf_ticksPerUnit_width : Params.wf { ps with ticksPerUnit := 2 ^ 32 } = false := by decide
theorem test_wf_port_low : portOk 0 = false := by decide
theorem test_wf_port_high : portOk 65536 = false := by decide
theorem test_wf_timeout_zero : timeoutOk 0 = false := by decide
theorem test_wf_timeout_width : timeoutFits (2 ^ 32) = false := by decide

/-! ## Decoding: words written out bit by bit from 30_encoding.md rule R80 (reserved 22 bits, F1, F0, OPC 8 bits) -/

/-- What the decoder makes of a word, with equality. -/
def read (w : Word) : Option Instr := (decodeWord w).toOption

theorem test_decode_encodePayload : read 0b0000000000000000000000_0_0_00000001 = some .encodePayload := by decide
theorem test_decode_decodePayload : read 0b0000000000000000000000_0_0_00000010 = some .decodePayload := by decide
theorem test_decode_computeChecksum : read 0b0000000000000000000000_0_0_00000011 = some .computeChecksum := by decide
theorem test_decode_createPacket : read 0b0000000000000000000000_0_0_00000100 = some (.createPacket false) := by decide
theorem test_decode_createPacket_ck : read 0b0000000000000000000000_0_1_00000100 = some (.createPacket true) := by decide
theorem test_decode_splitPacket : read 0b0000000000000000000000_0_0_00000101 = some .splitPacket := by decide
theorem test_decode_validatePacket : read 0b0000000000000000000000_0_0_00000110 = some .validatePacket := by decide
theorem test_decode_connect : read 0b0000000000000000000000_0_0_00010000 = some .connect := by decide
theorem test_decode_disconnect : read 0b0000000000000000000000_0_0_00010001 = some .disconnect := by decide
theorem test_decode_setAckMode_on : read 0b0000000000000000000000_0_1_00010010 = some (.setAckMode true) := by decide
theorem test_decode_setAckMode_off : read 0b0000000000000000000000_0_0_00010010 = some (.setAckMode false) := by decide
theorem test_decode_sendPacket : read 0b0000000000000000000000_1_0_00100000 = some (.sendPacket false true) := by decide
theorem test_decode_sendPacket_ck : read 0b0000000000000000000000_1_1_00100000 = some (.sendPacket true true) := by decide
theorem test_decode_sendPacket_nochk : read 0b0000000000000000000000_0_0_00100000 = some (.sendPacket false false) := by
  decide
theorem test_decode_sendPacket_ck_nochk : read 0b0000000000000000000000_0_1_00100000 = some (.sendPacket true false) := by
  decide
theorem test_decode_checkAck : read 0b0000000000000000000000_0_0_00100001 = some .checkAck := by decide
theorem test_decode_sendAck : read 0b0000000000000000000000_0_0_00100010 = some .sendAck := by decide
theorem test_decode_sendNack : read 0b0000000000000000000000_0_0_00100011 = some .sendNack := by decide
theorem test_decode_sendInterrupt : read 0b0000000000000000000000_0_0_00100100 = some .sendInterrupt := by decide
theorem test_decode_recvPacket : read 0b0000000000000000000000_0_1_00110000 = some (.recvPacket true) := by decide
theorem test_decode_recvPacket_raw : read 0b0000000000000000000000_0_0_00110000 = some (.recvPacket false) := by decide
theorem test_decode_recvAndDecode : read 0b0000000000000000000000_0_0_00110001 = some .recvAndDecode := by decide

/-- The reserved words of 95_test_vectors.md section 2.7. -/
theorem test_decode_reserved_opcodes :
    ([0x00, 0x07, 0x0F, 0x13, 0x1F, 0x25, 0x2F, 0x32, 0xFF] : List Word).map read = List.replicate 9 none := by decide
theorem test_decode_reserved_flags :
    ([0x101, 0x201, 0x204, 0x230, 0x312, 0x110, 0x410, 0x80000220] : List Word).map read = List.replicate 8 none := by
  decide
/-- Four bytes, little-endian (20_memory.md rule R65); three are too few. -/
theorem test_decode_bytes : (decodeBytes [0x20, 0x02, 0x00, 0x00, 0xAA]).toOption = some (.sendPacket false true, [0xAA]) := by
  decide
theorem test_decode_truncated : (decodeBytes [0x20, 0x02, 0x00]).toOption = none := by decide
theorem test_decodeTableWord : decodeTableWord 32 0x130 = some (.recvPacket true) := by decide

/-! ## Small states -/

/-- The next state of an outcome. -/
def nextOf (o : Host.Outcome State Fault Refusal) : Option State :=
  match o with
  | .next t => some t
  | .fault _ | .refused _ => none

/-- A command at its start with an operand in IN. -/
def atStart (operand : Bytes) : State :=
  { State.reset with
    mem := Memory.storeAll [] inBase operand, inLen := BitVec.ofNat 32 operand.length, phase := .start }

/-- The same with LINK = 1 and RXBUF given. -/
def linked (operand rxBuf : Bytes) : State :=
  { atStart operand with link := true, transportOpen := true, rxBuf := rxBuf }

/-- STATUS, RESULT and OUT[0:OUT_LEN). -/
def shown (o : Host.Outcome State Fault Refusal) : Option (Word × Word × Bytes) :=
  (nextOf o).map fun t => (t.statusWord, t.result, t.outBytes)

/-- STATUS, TXLOG and RXBUF. -/
def onLink (o : Host.Outcome State Fault Refusal) : Option (Word × List Bytes × Bytes) :=
  (nextOf o).map fun t => (t.statusWord, t.txLog, t.rxBuf)

/-! ## Codec commands (vectors W2 to W5 and sections 2.1 to 2.6) -/

theorem test_encodePayload : shown (exec .encodePayload (atStart [0x7D, 0x24, 0x23, 0x2A])) =
    some (0x12, 0, [0x7D, 0x5D, 0x7D, 0x04, 0x7D, 0x03, 0x2A]) := by decide
theorem test_encodePayload_inLen : (nextOf (exec .encodePayload { atStart [] with inLen := 257 })).map (·.statusWord) =
    some 0x6116 := by decide
/-- `EFGa*!HIJ` → `EFGaaaaaHIJ`. -/
theorem test_decodePayload :
    shown (exec .decodePayload (atStart [0x45, 0x46, 0x47, 0x61, 0x2A, 0x21, 0x48, 0x49, 0x4A])) =
      some (0x12, 0, [0x45, 0x46, 0x47, 0x61, 0x61, 0x61, 0x61, 0x61, 0x48, 0x49, 0x4A]) := by decide
/-- `a*$` → 0x13. -/
theorem test_decodePayload_framing : shown (exec .decodePayload (atStart [0x61, 0x2A, 0x24])) = some (0x1316, 0, []) := by
  decide
/-- `}\x04` → `81`. -/
theorem test_computeChecksum : shown (exec .computeChecksum (atStart [0x7D, 0x04])) = some (0x12, 0, [0x38, 0x31]) := by
  decide
/-- `$` → `$}\x04#81`. -/
theorem test_createPacket : shown (exec (.createPacket false) (atStart [0x24])) =
    some (0x12, 0, [0x24, 0x7D, 0x04, 0x23, 0x38, 0x31]) := by decide
/-- ARG = `x0` → 0x43. -/
theorem test_createPacket_badCk :
    shown (exec (.createPacket true) { atStart [0x61, 0x62, 0x63] with arg := 0x3078 }) = some (0x4316, 0, []) := by decide
/-- `$abc#26` → `abc`, RESULT 0x36322324. -/
theorem test_splitPacket : shown (exec .splitPacket (atStart [0x24, 0x61, 0x62, 0x63, 0x23, 0x32, 0x36])) =
    some (0x12, 0x36322324, [0x61, 0x62, 0x63]) := by decide
theorem test_splitPacket_short : shown (exec .splitPacket (atStart [0x24, 0x61, 0x23])) = some (0x4516, 0, []) := by decide
/-- `$abc#26` is accepted. -/
theorem test_validatePacket : shown (exec .validatePacket (atStart [0x24, 0x61, 0x62, 0x63, 0x23, 0x32, 0x36])) =
    some (0x12, 0, []) := by decide
/-- `$a$b#e7` → 0x18. -/
theorem test_validatePacket_framing :
    shown (exec .validatePacket (atStart [0x24, 0x61, 0x24, 0x62, 0x23, 0x65, 0x37])) = some (0x1816, 0, []) := by decide

/-! ## Link control (W10, section 2.10) -/

/-- The open accepted after `SET_ACK_MODE off`: ACK_MODE is forced to 1. -/
theorem test_connect :
    (nextOf (exec .connect { atStart [] with phase := .opening (some .opened), ackMode := false, transportOpen := true })).map
      (·.statusWord) = some 0x1A := by decide
theorem test_connect_twice : (nextOf (exec .connect (linked [] []))).map (·.statusWord) = some 0x411E := by decide
theorem test_disconnect : (nextOf (exec .disconnect { linked [] [0x2B] with ackMode := false })).map
    (fun t => (t.statusWord, t.rxBuf, t.transportOpen)) = some (0x02, [], false) := by decide
theorem test_setAckMode : (nextOf (exec (.setAckMode false) (linked [] []))).map (·.statusWord) = some 0x0A := by decide
/-- A RECV_PACKET in Refill with ACC = `$ab`, aborted. -/
theorem test_abort :
    (nextOf (hostAccess (.write 0 .w32 0x11)
      { linked [] [] with
        curCmd := 0x130, phase := .refilling (.scan .body) 0 50 none, armed := true, acc := [0x24, 0x61, 0x62] })).map
      (fun t => (t.statusWord, t.acc, t.curCmd)) = some (0x5416, [], 0x130) := by decide
/-- During ENCODE_PAYLOAD the same write is refused. -/
theorem test_abort_codec : (nextOf (hostAccess (.write 0 .w32 0x11) { atStart [] with curCmd := 0x01 })).isSome = false := by
  decide

/-! ## Packet exchange (W6 to W9, section 2.11) -/

/-- IN = `g`: the frame `$g#67` is handed to the transport. -/
theorem test_sendPacket : (nextOf (exec (.sendPacket false true) (linked [0x67] []))).map (·.phase) =
    some (.sending [0x24, 0x67, 0x23, 0x36, 0x37] .command none) := by decide
/-- The write accepted, ACK_MODE = 0: nothing is read. -/
theorem test_sendPacket_noAck :
    onLink (exec (.sendPacket false true)
      { linked [0x67] [] with
        phase := .sending [0x24, 0x67, 0x23, 0x36, 0x37] .command (some .done), ackMode := false,
        txLog := [[0x24, 0x67, 0x23, 0x36, 0x37]] }) =
      some (0x0A, [[0x24, 0x67, 0x23, 0x36, 0x37]], []) := by decide
/-- RXBUF = `+$`: the `+` is taken whatever ACK_MODE is. -/
theorem test_checkAck : onLink (exec .checkAck { linked [] [0x2B, 0x24] with ackMode := false }) =
    some (0x0A, [], [0x24]) := by decide
/-- RXBUF = `x+` → 0x22, RESULT 0x78, pushed back. -/
theorem test_checkAck_other : (nextOf (exec .checkAck (linked [] [0x78, 0x2B]))).map
    (fun t => (t.statusWord, t.result, t.rxBuf)) = some (0x221E, 0x78, [0x78, 0x2B]) := by decide
theorem test_sendAck : (nextOf (exec .sendAck (linked [] []))).map (·.phase) = some (.sending [0x2B] .command none) := by
  decide
theorem test_sendNack : (nextOf (exec .sendNack (linked [] []))).map (·.phase) = some (.sending [0x2D] .command none) := by
  decide
theorem test_sendInterrupt : (nextOf (exec .sendInterrupt (linked [] []))).map (·.phase) =
    some (.sending [0x03] .command none) := by decide
theorem test_sendAck_unconnected : (nextOf (exec .sendAck (atStart []))).map (·.statusWord) = some 0x4216 := by decide
/-- `.raw`: `$ab#zz` is returned as it came, and what follows it stays. -/
theorem test_recvPacket_raw :
    shown (exec (.recvPacket false) (linked [] [0x24, 0x61, 0x62, 0x23, 0x7A, 0x7A, 0x67])) =
      some (0x1A, 0, [0x24, 0x61, 0x62, 0x23, 0x7A, 0x7A]) := by decide
/-- W9: MAX_PACKET_LEN = 8, `$abcdefghij#xx` → 0x24, RESULT 8. -/
theorem test_recvPacket_oversized :
    (nextOf (exec (.recvPacket true)
      { linked [] [0x24, 0x61, 0x62, 0x63, 0x64, 0x65, 0x66, 0x67, 0x68, 0x69, 0x6A, 0x23, 0x78, 0x78] with
        params := { ps with maxPacketLen := 8, outCap := 16 } })).map (fun t => (t.statusWord, t.result)) =
      some (0x241E, 8) := by decide
/-- `$a*!#ac` with the `+` accepted → `aaaaa`. -/
theorem test_recvAndDecode :
    shown (exec .recvAndDecode
      { linked [] [] with
        phase := .sending [0x2B] (.plus [0x24, 0x61, 0x2A, 0x21, 0x23, 0x61, 0x63]) (some .done), armed := true }) =
      some (0x1A, 0, [0x61, 0x61, 0x61, 0x61, 0x61]) := by decide
/-- `$}#7d` is acknowledged first. -/
theorem test_recvAndDecode_plus : (nextOf (exec .recvAndDecode (linked [] [0x24, 0x7D, 0x23, 0x37, 0x64]))).map (·.phase) =
    some (.sending [0x2B] (.plus [0x24, 0x7D, 0x23, 0x37, 0x64]) none) := by decide

/-! ## The deadline (section 2.9) -/

/-- CFG_TIMEOUT = 50, now = 41: r = 9, rounded up to 10. -/
theorem test_waitBound_rounded : waitBound { State.reset with now := 41 } = some 10 := by decide
theorem test_waitBound_passed : waitBound { State.reset with now := 50 } = none := by decide

/-! ## Issue, dispatch and the fetch word -/

theorem test_reset_status : State.reset.statusWord = 0x10 := by decide
/-- A reserved word at dispatch (section 2.7, LINK = 1): STATUS 0x441E. -/
theorem test_dispatch_reserved : (nextOf (step { linked [] [] with phase := .dispatch, curCmd := 0x101 })).map
    (·.statusWord) = some 0x441E := by decide
/-- COMPUTE_CHECKSUM right after reset: `00`. -/
theorem test_withFetchWord : shown (step (State.reset.withFetchWord 32 0x03)) = some (0x12, 0, [0x30, 0x30]) := by decide
/-- A 16-bit write and a 32-bit read of IN, little-endian (20_memory.md rule R63). -/
theorem test_window :
    ((nextOf (hostAccess (.write 0x01000002 .w16 0xBEEF)
        { State.reset with mem := Memory.storeAll [] inBase [0x11, 0x22] })).bind
      (fun t => nextOf (hostAccess (.read 0x01000000 .w32) t))).bind (·.busData) = some 0xBEEF2211 := by decide
/-- PARAM_POLICY of ANY_CASE_NUMERIC and TRANSPORT_ERROR (10_state.md rule R33). -/
theorem test_paramPolicy :
    (nextOf (hostAccess (.read 0x34 .w32)
      { State.reset with params := { ps with hexCase := .anyCaseNumeric, eof := .transportError } })).bind (·.busData) =
      some 0x102 := by decide
/-- Before DONE = 1 has been seen the host knows no output (20_memory.md rule R69), and then it does. -/
theorem test_outputs_settle :
    State.reset.outputsSettled = false ∧
      (nextOf (hostAccess (.read 4 .w32) { State.reset with done := true })).map (·.outputsSettled) = some true := by decide
/-- The peer's bytes arrive after its close too (10_state.md rule R36). -/
theorem test_peerSend_after_close :
    (nextOf (peerSend [0x2B] { linked [] [] with peerClosed := true })).map (·.rxStream) = some [0x2B] := by decide
theorem test_memory_wf_reset : Memory.wf State.reset.mem = true := by decide

/-! ## Witnesses: for every statement with hypotheses, a state and operands that meet them, clause by clause -/

/-- The next state of a run. -/
def ranTo (n : Nat) (s : State) : Option State := nextOf (core.run n s)

theorem next_of_nextOf {o : Host.Outcome State Fault Refusal} {t : State} (h : nextOf o = some t) : o = .next t := by
  cases o <;> simp_all [nextOf]

theorem next_of_isSome {o : Host.Outcome State Fault Refusal} (h : (nextOf o).isSome = true) : ∃ t, o = .next t := by
  obtain ⟨t, ht⟩ := Option.isSome_iff_exists.mp h
  exact ⟨t, next_of_nextOf ht⟩

theorem witness_EncodeDecodeAgree : decodeWord 0x320 = .ok (.sendPacket true true) := rfl

/-- A word of a row, and a reserved word for each ground of rule R92, at the edges of its ranges. -/
theorem witness_ReservedWordsMatchNoRow :
    (∃ r ∈ opcodeRows, r.matches 0x130 = true) ∧ ReservedWord 0x07 ∧ ReservedWord 0x0F ∧ ReservedWord 0x32 ∧
      ReservedWord 0xFF ∧ ReservedWord 0x404 ∧ ReservedWord 0x80000220 ∧ ReservedWord 0x101 ∧ ReservedWord 0x204 :=
  ⟨⟨⟨0x30, 0xFFFFFEFF⟩, by decide, by decide⟩, .inl (.inr (.inl (by decide))), .inl (.inr (.inl (by decide))),
    .inl (.inr (.inr (.inr (.inr (by decide))))), .inl (.inr (.inr (.inr (.inr (by decide))))), .inr (.inl (by decide)),
    .inr (.inl (by decide)), .inr (.inr (.inl (by unfold UsesF0; decide))), .inr (.inr (.inr (by decide)))⟩

/-- At a command's start with no turn pending, and with a block turn first; and a state with no turn to load a word into. -/
theorem witness_StepRunsDecodedCommand :
    let s := { atStart [] with curCmd := 0x03 }
    s.phase ≠ .idle ∧ s.phase ≠ .dispatch ∧ decodeWord s.curCmd = .ok .computeChecksum ∧ s.agenda = [] ∧
      { s with agenda := [.block, .tick 1] }.agenda = .block :: [.tick 1] ∧
      { s with agenda := [.host (.read 4 .w32)] }.agenda = .host (.read 4 .w32) :: [] ∧
      { s with agenda := [.event .txDone] }.agenda = .event .txDone :: [] ∧ State.reset.agenda = [] :=
  ⟨by decide, by decide, rfl, rfl, rfl, rfl, rfl, rfl⟩

/-- The block idle and a block turn; and turns pending before a word is loaded. -/
theorem witness_StepRunsDecodedCommand_idle :
    State.reset.phase = .idle ∧ { State.reset with agenda := [.block, .tick 1] }.agenda = .block :: [.tick 1] ∧
      shown (step ({ State.reset with agenda := [.tick 1] }.withFetchWord 32 (encode .computeChecksum).toNat)) =
        some (0x12, 0, [0x30, 0x30]) := by decide

/-- The turns of the peer and of the time source; an open and a closed transport. -/
theorem witness_StepRunsDecodedCommand_peer :
    let s := { linked [] [] with agenda := [.peerSend [0x2B], .peerClose] }
    s.agenda = .peerSend [0x2B] :: [.peerClose] ∧ s.transportOpen = true ∧
      { s with agenda := [.peerClose] }.agenda = .peerClose :: [] ∧
      { s with agenda := [.tick 7] }.agenda = .tick 7 :: [] ∧ State.reset.transportOpen = false := by decide

theorem witness_CmdWriteIssues : State.reset.phase = .idle := rfl

/-- A word of a row, and one of none. -/
theorem witness_DispatchLooksUpTheWord :
    (∃ r ∈ opcodeRows, r.matches { atStart [] with curCmd := 0x320, phase := .dispatch }.curCmd = true) ∧
      (∀ r ∈ opcodeRows, r.matches { atStart [] with curCmd := 0x201, phase := .dispatch }.curCmd = false) := by decide

/-- A result of exactly OUT_CAP bytes, and one of a byte more. -/
theorem witness_CompleteWritesTheResult :
    State.reset.params.wf = true ∧ (List.replicate 256 (0x61 : Byte)).length ≤ State.reset.params.outCap ∧
      State.reset.params.outCap < (List.replicate 257 (0x61 : Byte)).length := by
  refine ⟨by decide, ?_, ?_⟩ <;> simp only [List.length_replicate] <;> decide

/-- A refused access for each clause of rule R62, in its order, and one that has a meaning: the last byte of IN. -/
theorem witness_RefusedAccessesAreRuleR62 :
    let s := { atStart [] with curCmd := 0x01 }
    s.params.wf = true ∧ (nextOf (hostAccess (.read 0x38 .w32) s)).isSome = false ∧
      (nextOf (hostAccess (.read 0x00 .w32) s)).isSome = false ∧
      (nextOf (hostAccess (.write 0x34 .w32 0) s)).isSome = false ∧
      (nextOf (hostAccess (.write 0x02000000 .w8 0) s)).isSome = false ∧
      (nextOf (hostAccess (.read 0x04 .w16) s)).isSome = false ∧
      (nextOf (hostAccess (.read 0x01000001 .w16) s)).isSome = false ∧
      (nextOf (hostAccess (.write 0x01000000 .w8 0) s)).isSome = false ∧
      (nextOf (hostAccess (.read 0x010000FF .w8) s)).isSome = true ∧
      (nextOf (hostAccess (.read 0x01000100 .w8) s)).isSome = false := by decide

/-- The host has seen DONE = 1. -/
def settled : State := { State.reset with done := true, outputsSettled := true, result := 0x36322324, outLen := 3 }

/-- Both tables of registers, the first and the last row of each; the outputs known. -/
theorem witness_HostAccessesOnlyStore_reads :
    settled.params.wf = true ∧ ((0x08, 0) : Word × Nat) ∈ shownRegisters settled ∧
      ((0x34, 1) : Word × Nat) ∈ shownRegisters settled ∧ settled.outputsSettled = true ∧ settled.phase = .idle ∧
      ((0x0C, 0x36322324) : Word × Nat) ∈ outputRegisters settled ∧ ((0x14, 3) : Word × Nat) ∈ outputRegisters settled := by
  decide

/-- An accepted access for each clause: a read, a write of ARG, of IN_LEN, and of the last word of IN. -/
theorem witness_HostAccessesOnlyStore :
    (∃ t, hostAccess (.read 0x04 .w32) State.reset = .next t) ∧
      (∃ t, hostAccess (.write 8 .w32 0xFFFFFFFF) State.reset = .next t) ∧
      (∃ t, hostAccess (.write 0x10 .w32 257) State.reset = .next t) ∧
      (∃ t, hostAccess (.write 0x010000FC .w32 0x01020304) State.reset = .next t) ∧ State.reset.params.wf = true :=
  ⟨next_of_isSome (by decide), next_of_isSome (by decide), next_of_isSome (by decide), next_of_isSome (by decide),
    by decide⟩

/-- The last half-word of IN, and of OUT. -/
theorem witness_WindowWriteThenRead :
    settled.phase = .idle ∧ settled.params.wf = true ∧ 0x01000000 ≤ (0x010000FE : Word).toNat ∧
      (0x010000FE : Word).toNat + widthBytes .w16 ≤ 0x01000000 + settled.params.inCap ∧
      (0x010000FE : Word).toNat % widthBytes .w16 = 0 ∧ 0x02000000 ≤ (0x020000FE : Word).toNat ∧
      (0x020000FE : Word).toNat + widthBytes .w16 ≤ 0x02000000 + settled.params.outCap ∧
      (0x020000FE : Word).toNat % widthBytes .w16 = 0 ∧ settled.outputsSettled = true := by decide

/-- A transmit cut short, another wait, and a command that is not aborted. -/
theorem witness_DisconnectWordAborts :
    let s := { linked [] [] with curCmd := 0x22, phase := .sending [0x2B] .command none }
    let u := { s with curCmd := 0x130, phase := .refilling (.scan .sop) 0 50 none }
    s.phase ≠ .idle ∧ AbortableWord s.curCmd ∧
      s.phase = .sending [0x2B] .command none ∧ s.transportOpen = true ∧ u.phase ≠ .idle ∧ AbortableWord u.curCmd ∧
      (∀ packet pt, u.phase ≠ .sending packet pt none) ∧ ¬ AbortableWord { s with curCmd := 0x01 }.curCmd := by
  refine ⟨by decide, ?_, rfl, rfl, by decide, ?_, ?_, ?_⟩
  · unfold AbortableWord; decide
  · unfold AbortableWord; decide
  · intro packet pt h; cases h
  · unfold AbortableWord; decide

/-- IN_LEN one above IN_CAP, in any codec command. -/
theorem witness_codec_inLen :
    { atStart [] with inLen := 257 }.params.wf = true ∧ ¬ InLenOk { atStart [] with inLen := 257 } := by
  unfold InLenOk; decide

/-- An operand whose encoding fits OUT, and one whose encoding does not (129 times `$`, section 2.1). -/
theorem witness_EncodePayloadResult :
    (atStart [0x7D]).params.wf = true ∧ InLenOk (atStart [0x7D]) ∧
      ((inBytes (atStart [0x7D])).flatMap escaped).length ≤ (atStart [0x7D]).params.outCap ∧
      InLenOk (atStart (List.replicate 129 0x24)) ∧
      (atStart (List.replicate 129 0x24)).params.outCap <
        ((inBytes (atStart (List.replicate 129 0x24))).flatMap escaped).length := by
  unfold InLenOk
  decide +kernel

/-- `a* ` fits, `a*~` with OUT_CAP = 66 does not, `a*` is malformed. -/
theorem witness_DecodePayloadResult :
    InLenOk (atStart [0x61, 0x2A, 0x20]) ∧ (atStart [0x61, 0x2A, 0x20]).params.wf = true ∧
      Decodes (inBytes (atStart [0x61, 0x2A, 0x20])) (List.replicate 4 0x61) ∧
      Params.wf { ps with outCap := 66 } = true ∧ Decodes [0x61, 0x2A, 0x7E] (List.replicate 98 0x61) ∧
      66 < (List.replicate 98 (0x61 : Byte)).length ∧ Malformed (inBytes (atStart [0x61, 0x2A])) 0x12 := by
  have h1 : inBytes (atStart [0x61, 0x2A, 0x20]) = [0x61, 0x2A, 0x20] := by decide
  have h2 : inBytes (atStart [0x61, 0x2A]) = [0x61, 0x2A] := by decide
  rw [h1, h2]
  refine ⟨by unfold InLenOk; decide, by decide, ?_, by decide, ?_, by decide, .countMissing _ (by decide)⟩
  · exact .run 0x61 0x20 (by decide) (by unfold LegalCount; decide) .nil
  · exact .run 0x61 0x7E (by decide) (by unfold LegalCount; decide) .nil

theorem witness_TokensCoverEveryPayload : Decodes [0x61] [0x61] ∧ Malformed [0x7D] 0x11 :=
  ⟨.literal 0x61 (by decide) (by decide) .nil, .escMissing⟩

theorem witness_ComputeChecksumResult : (atStart [0x7D]).params.wf = true ∧ InLenOk (atStart [0x7D]) := by
  unfold InLenOk; decide

/-- ARG = `ff` and the frame fits; ARG = `ff` and IN = 253 bytes of `a`, which does not; ARG = 0, no digits. -/
theorem witness_CreatePacketResult :
    let s := { atStart [0x61] with arg := 0x6666 }
    let u := { atStart (List.replicate 253 0x61) with arg := 0x6666 }
    s.params.wf = true ∧ InLenOk s ∧ ArgIsChecksum s ∧ ((inBytes s).flatMap escaped).length + 4 ≤ s.params.outCap ∧
      u.params.wf = true ∧ InLenOk u ∧ ArgIsChecksum u ∧ u.params.outCap < ((inBytes u).flatMap escaped).length + 4 ∧
      ¬ ArgIsChecksum (atStart []) := by
  have d : DigitOf .anyCaseText 15 (0x66 : Byte) := .inl (.inr (by decide))
  have n : ∀ v, ¬ DigitOf .anyCaseText v (0x00 : Byte) := by
    rintro v ((⟨_, h⟩ | ⟨_, _, h⟩) | ⟨_, _, _, h⟩) <;> simp at h <;> omega
  refine ⟨by decide, by unfold InLenOk; decide, ⟨⟨15, d⟩, ⟨15, d⟩⟩, by decide +kernel, by decide +kernel,
    by unfold InLenOk; decide +kernel, ⟨⟨15, d⟩, ⟨15, d⟩⟩, by decide +kernel, fun h => ?_⟩
  obtain ⟨v, hv⟩ := h.1
  exact n v hv

/-- Three bytes, four bytes with an empty payload, and a payload longer than OUT. -/
theorem witness_SplitPacketResult :
    (atStart [0x24, 0x61, 0x23]).inLen.toNat < 4 ∧ InLenOk (atStart [0x24, 0x61, 0x23]) ∧
      inBytes (atStart [0x24, 0x23, 0x30, 0x30]) = 0x24 :: [] ++ [0x23, 0x30, 0x30] ∧
      (let s := { atStart (List.replicate 71 0x61) with params := { ps with outCap := 66 } }
       s.params.wf = true ∧ InLenOk s ∧ inBytes s = 0x61 :: List.replicate 67 0x61 ++ [0x61, 0x61, 0x61] ∧
         s.params.outCap < (List.replicate 67 (0x61 : Byte)).length) := by
  refine ⟨by decide, by unfold InLenOk; decide, by decide, ?_⟩
  unfold InLenOk
  decide +kernel

/-- One packet for each check, in the rule's order (W5, section 2.6). -/
theorem witness_ValidatePacketResult :
    (atStart [0x24, 0x61, 0x23]).inLen.toNat < 4 ∧ InLenOk (atStart [0x24, 0x61, 0x23]) ∧
      inBytes (atStart [0x61, 0x23, 0x30, 0x30]) = 0x61 :: [] ++ [0x23, 0x30, 0x30] ∧
      inBytes (atStart [0x24, 0x62, 0x30, 0x30]) = 0x24 :: [] ++ [0x62, 0x30, 0x30] ∧
      inBytes (atStart [0x24, 0x24, 0x23, 0x32, 0x34]) = 0x24 :: [0x24] ++ [0x23, 0x32, 0x34] ∧
      inBytes (atStart [0x24, 0x23, 0x78, 0x78]) = 0x24 :: [] ++ [0x23, 0x78, 0x78] ∧
      inBytes (atStart [0x24, 0x23, 0x30, 0x31]) = 0x24 :: [] ++ [0x23, 0x30, 0x31] ∧
      AcceptedChecksum .anyCaseText [] 0x30 0x30 ∧ ¬ AcceptedChecksum .anyCaseText [] 0x30 0x31 ∧
      (∃ v, DigitOf .anyCaseText v 0x31) ∧ ¬ ∃ v, DigitOf .anyCaseText v 0x78 := by
  refine ⟨by decide, by unfold InLenOk; decide, by decide, by decide, by decide, by decide, by decide,
    ⟨.inl (by decide), .inl (by decide)⟩, ?_, ⟨1, .inl (.inl (by decide))⟩, ?_⟩
  · rintro ⟨_, h | h⟩ <;> revert h <;> decide
  · rintro ⟨v, (⟨_, h⟩ | ⟨_, _, h⟩) | ⟨_, _, _, h⟩⟩ <;> simp at h <;> omega

theorem witness_InLenCheckedFirst :
    let s := { atStart [] with inLen := 257 }
    s.phase = .start ∧ ¬ InLenOk s := by
  unfold InLenOk; decide

/-- Two states that differ in LINK, ACK_MODE and RXBUF alone. -/
theorem witness_CodecCommandsArePure :
    let s := atStart [0x61]
    let u := { linked [0x61] [0x2B] with ackMode := false }
    s.params = u.params ∧ s.params.wf = true ∧ s.inLen = u.inLen ∧ inBytes s = inBytes u ∧ s.arg = u.arg ∧
      s.armed = false ∧ (∃ t, exec .encodePayload s = .next t) ∧ ∃ t, exec .encodePayload u = .next t :=
  ⟨rfl, by decide, rfl, by decide, rfl, rfl, ⟨_, rfl⟩, ⟨_, rfl⟩⟩

theorem witness_DecodeOutputLength : decodeBytesOf [0x61, 0x2A, 0x7E] = .ok (List.replicate 98 0x61) := by rfl

theorem witness_ChecksumOutput :
    sumMod256 [0x80, 0x80] = sumMod256 [] ∧ ([0x61, 0x62] : Bytes).Perm [0x62, 0x61] := ⟨by decide, .swap ..⟩

theorem witness_BuiltFramesValidate : ckSyntaxOk .anyCaseText [0x30, 0x30] = true := by decide

/-- LINK = 1 at the start; LINK = 0 at the start; the open's wait; the open failed; the open accepted. -/
theorem witness_ConnectResult :
    (linked [] []).params.wf = true ∧ (linked [] []).phase = .start ∧ (linked [] []).link = true ∧
      (atStart []).phase = .start ∧ (atStart []).link = false ∧
      { atStart [] with phase := .opening none }.phase = .opening none ∧
      { atStart [] with phase := .opening (some .failed) }.phase = .opening (some .failed) ∧
      { atStart [] with phase := .opening (some .opened) }.phase = .opening (some .opened) := by decide

theorem witness_ConnectRunsToCompletion :
    let s := { atStart [] with curCmd := 0x10, agenda := [.block, .event .opened, .block] }
    s.params.wf = true ∧ s.phase = .start ∧ s.curCmd = 0x10 ∧ s.link = false ∧
      s.agenda = [.block, .event .opened, .block] := by decide

theorem witness_DisconnectResult :
    (linked [] [0x61]).params.wf = true ∧ (linked [] [0x61]).link = true ∧ (atStart []).params.wf = true ∧
      (atStart []).link = false ∧ (atStart []).rxBuf = [] := by decide

theorem witness_SetAckModeResult : (linked [] []).params.wf = true := by decide

/-- SEND_PACKET of both forms among the commands that need the link. -/
theorem witness_NotConnectedFails :
    let s := { atStart [0x67] with arg := 0x6666 }
    s.phase = .start ∧ s.link = false ∧ InLenOk s ∧ ArgIsChecksum s := by
  have d : DigitOf .anyCaseText 15 (0x66 : Byte) := .inl (.inr (by decide))
  exact ⟨rfl, rfl, by unfold InLenOk; decide, ⟨15, d⟩, ⟨15, d⟩⟩

/-- One state for each of the four cases (section 2.8). -/
theorem witness_SendPacketStart :
    (atStart []).phase = .start ∧ ¬ InLenOk { atStart [] with inLen := 257 } ∧ InLenOk (atStart [0x67]) ∧
      ¬ ArgIsChecksum { atStart [0x67] with arg := 0x7A7A } ∧ ArgIsChecksum { atStart [0x67] with arg := 0x6666 } ∧
      (atStart [0x67]).link = false ∧ (linked [0x67] []).link = true ∧ InLenOk (linked [0x67] []) := by
  have d : DigitOf .anyCaseText 15 (0x66 : Byte) := .inl (.inr (by decide))
  have n : ∀ v, ¬ DigitOf .anyCaseText v (0x7A : Byte) := by
    rintro v ((⟨_, h⟩ | ⟨_, _, h⟩) | ⟨_, _, _, h⟩) <;> simp at h <;> omega
  refine ⟨rfl, by unfold InLenOk; decide, by unfold InLenOk; decide, fun h => ?_, ⟨⟨15, d⟩, ⟨15, d⟩⟩, rfl, rfl,
    by unfold InLenOk; decide⟩
  obtain ⟨v, hv⟩ := h.1
  exact n v hv

/-- The write failed; accepted with ACK_MODE = 0; accepted with ACK_MODE = 1, a byte in RXBUF, and none; after a refill; both
waits with no answer. -/
theorem witness_SendPacketAfterWrite :
    let s := { linked [0x67] [0x2B] with phase := .sending [0x24] .command (some .done) }
    s.params.wf = true ∧ { s with phase := .sending [0x24] .command (some .failed) }.phase =
        .sending [0x24] .command (some .failed) ∧
      s.phase = .sending [0x24] .command (some .done) ∧ { s with ackMode := false }.ackMode = false ∧ s.ackMode = true ∧
      s.rxBuf = 0x2B :: [] ∧ { s with rxBuf := [] }.rxBuf = [] ∧ 0 < s.cfgTimeout.toNat ∧
      { s with phase := .sending [0x24] .command none }.phase = .sending [0x24] .command none ∧
      { s with phase := .refilling .ack 0 50 none }.phase = .refilling .ack 0 50 none ∧
      { s with phase := .refilling .ack 0 50 (some .data) }.phase = .refilling .ack 0 50 (some .data) := by decide

theorem witness_SendPacketRunsToCompletion :
    let s := { linked [0x67] [] with curCmd := 0x220, ackMode := false, agenda := [.block, .event .txDone, .block] }
    s.params.wf = true ∧ s.phase = .start ∧ InLenOk s ∧ s.link = true ∧ s.curCmd = 0x220 ∧ s.ackMode = false ∧
      s.agenda = [.block, .event .txDone, .block] := by
  unfold InLenOk; decide

/-- The custom checksum `ff`. -/
theorem witness_SendPacketRunsToCompletion_custom :
    let s := { linked [0x67] [] with
      curCmd := 0x320, arg := 0x6666, ackMode := false, agenda := [.block, .event .txDone, .block] }
    s.params.wf = true ∧ s.phase = .start ∧ InLenOk s ∧ s.link = true ∧ s.curCmd = 0x320 ∧ s.ackMode = false ∧
      s.agenda = [.block, .event .txDone, .block] ∧ ArgIsChecksum s := by
  have d : DigitOf .anyCaseText 15 (0x66 : Byte) := .inl (.inr (by decide))
  exact ⟨by decide, rfl, by unfold InLenOk; decide, rfl, rfl, rfl, rfl, ⟨15, d⟩, ⟨15, d⟩⟩

/-- Without the link; with a byte in RXBUF; with none; in a refill's wait and after it. -/
theorem witness_CheckAckResult :
    (atStart []).phase = .start ∧ (atStart []).link = false ∧ (linked [] [0x2D]).params.wf = true ∧
      (linked [] [0x2D]).phase = .start ∧ (linked [] [0x2D]).link = true ∧ (linked [] [0x2D]).rxBuf = 0x2D :: [] ∧
      (linked [] []).rxBuf = [] ∧ 0 < (linked [] []).cfgTimeout.toNat ∧
      { linked [] [] with phase := .refilling .ack 0 50 none }.phase = .refilling .ack 0 50 none ∧
      { linked [] [0x78] with phase := .refilling .ack 0 50 (some .data) }.phase =
        .refilling .ack 0 50 (some .data) := by decide

theorem witness_SingleByteSends :
    (linked [] []).params.wf = true ∧ (atStart []).phase = .start ∧ (atStart []).link = false ∧
      (linked [] []).phase = .start ∧ (linked [] []).link = true ∧
      { linked [] [] with phase := .sending [0x2D] .command none }.phase = .sending [0x2D] .command none ∧
      { linked [] [] with phase := .sending [0x2B] .command (some .failed) }.phase =
        .sending [0x2B] .command (some .failed) ∧
      { linked [] [] with phase := .sending [0x03] .command (some .done) }.phase =
        .sending [0x03] .command (some .done) := by decide

theorem witness_SingleByteSendsRunToCompletion :
    let s := { linked [] [] with curCmd := 0x24, agenda := [.block, .event .txDone, .block] }
    s.params.wf = true ∧ s.phase = .start ∧ s.link = true ∧ s.curCmd = 0x24 ∧
      s.agenda = [.block, .event .txDone, .block] := by decide

/-- A write of one byte: the whole of it, and a byte more than it has. -/
theorem witness_TransmitEvents :
    { linked [] [] with phase := .sending [0x2B] .command none }.phase = .sending [0x2B] .command none ∧
      1 ≤ ([0x2B] : Bytes).length ∧ ([0x2B] : Bytes).length < 2 := by decide

/-- An event in the wait that names it; while idle and in a wait that has been answered, none. -/
theorem witness_TransmitEvents_elsewhere :
    (∃ t, takeEvent .openFailed { atStart [] with phase := .opening none } = .next t) ∧
      nextOf (takeEvent .txDone State.reset) = none ∧
      nextOf (takeEvent .txDone { linked [] [] with phase := .sending [0x2B] .command (some .done) }) = none :=
  ⟨next_of_isSome (by decide), by decide, by decide⟩

/-- The edges of section 2.9: now = 50, r = 0; now = 41, r = 9; now = 40, r = 10. -/
theorem witness_RefillBound :
    remaining { State.reset with now := 50 } = 0 ∧ remaining { State.reset with now := 41 } = 9 ∧
      remaining { State.reset with now := 40 } = 10 ∧ State.reset.params.ticksPerUnit = 10 := by decide

/-- A refill with a chunk of the largest size at the last tick of its wait, and one at the end of the stream. -/
theorem witness_RefillEvents :
    let s := { linked [] [] with
      phase := .refilling .ack 0 50 none, now := 50, rxStream := List.replicate 16 0x61, peerClosed := true }
    s.phase = .refilling .ack 0 50 none ∧ (nextOf (takeEvent (.chunk 16) s)).isSome = true ∧
      (nextOf (takeEvent .expire s)).isSome = true ∧
      (nextOf (takeEvent .endOfStream { s with rxStream := [] })).isSome = true := by decide

/-- Each answer and none, for AckWait and for the scan; at the end of the stream the deadline just passed, and one tick before. -/
theorem witness_FailedRefillEndsTheCommand :
    let s := { linked [] [] with phase := .refilling .ack 0 50 (some .endOfStream), armed := true, now := 50 }
    s.phase = .refilling .ack 0 50 (some .endOfStream) ∧ s.params.eof = .timeoutAtDeadline ∧
      s.tArm + (s.cfgTimeout.toNat : Int) ≤ s.now ∧
      { s with now := 49 }.now < s.tArm + (s.cfgTimeout.toNat : Int) ∧ s.rxBuf.length ≤ s.params.rxChunkMax ∧
      { s with params := { ps with eof := .transportError } }.params.eof = .transportError ∧
      { s with phase := .refilling (.scan .sop) 0 50 none }.phase = .refilling (.scan .sop) 0 50 none ∧
      { s with phase := .refilling (.scan .sop) 0 50 (some .expired) }.phase =
        .refilling (.scan .sop) 0 50 (some .expired) ∧
      { s with phase := .refilling (.scan .sop) 0 50 (some .error) }.phase =
        .refilling (.scan .sop) 0 50 (some .error) := by decide

/-- A scan's start and its last point; a frame of exactly MAX_PACKET_LEN = 2 bytes from `$` to `#`, a wrong first byte, a
body at the limit, and a part of a frame. -/
theorem witness_ScanTakesExactlyTheFrames :
    ScanOk 2 [] .sop ∧ ScanOk 2 [0x24, 0x23] (.ck1 0x30) ∧ FrameShape 2 [0x24, 0x23, 0x30, 0x30] ∧
      taken [0x24, 0x23] (.ck1 0x30) ++ [0x30] = [0x24, 0x23, 0x30, 0x30] ++ [] ∧ ([0x67] : Bytes) = 0x67 :: [] ∧
      (0x67 : Byte) ≠ 0x24 ∧ ([0x24, 0x61, 0x23, 0x30, 0x30] : Bytes) = 0x24 :: [0x61] ++ [0x23, 0x30, 0x30] ∧
      ([0x61] : Bytes).length + 1 = 2 ∧ taken [] .sop ++ [0x24] = taken [0x24] .body ∧ ScanOk 2 [0x24] .body :=
  ⟨rfl, ⟨[], rfl, by decide, by decide⟩, ⟨[], 0x30, 0x30, rfl, by decide, by decide⟩, rfl, rfl, by decide, rfl, rfl, rfl,
    [], rfl, by decide, by decide⟩

/-- A receive that has taken `$a` and has `buf` in RXBUF after a chunk. -/
def resumed (buf : Bytes) : State :=
  { linked [] buf with phase := .refilling (.scan .body) 0 50 (some .data), armed := true, acc := [0x24, 0x61] }

theorem resumed_scans (buf : Bytes) : ScansAfter (resumed buf) [0x24, 0x61] :=
  .inr ⟨.body, 0, 50, rfl, rfl, ⟨[0x61], rfl, (by decide : (0x23 : Byte) ∉ [0x61]), (by decide : 2 < 64)⟩, rfl⟩

theorem linked_scans (operand buf : Bytes) : ScansAfter (linked operand buf) [] := .inl ⟨rfl, rfl, rfl⟩

/-- Each receive resumed: the rest of `$ab#00` and a byte after it, and a part of it with time left and with none. -/
theorem witness_receive_resumed :
    ScansAfter (resumed [0x62, 0x23, 0x30, 0x30, 0x2B]) [0x24, 0x61] ∧
      ([0x24, 0x61] ++ (resumed [0x62, 0x23, 0x30, 0x30, 0x2B]).rxBuf : Bytes) =
        [0x24, 0x61, 0x62, 0x23, 0x30, 0x30] ++ [0x2B] ∧
      FrameShape 64 [0x24, 0x61, 0x62, 0x23, 0x30, 0x30] ∧
      ([0x24, 0x61] ++ (resumed [0x62, 0x23, 0x30]).rxBuf : Bytes) = taken [0x24, 0x61, 0x62, 0x23] (.ck1 0x30) ∧
      ScanOk 64 [0x24, 0x61, 0x62, 0x23] (.ck1 0x30) ∧
      0 < ((resumed []).cfgTimeout.toNat : Int) - ((resumed []).now - windowStart (resumed [])) ∧
      (({ resumed [] with now := 50 }).cfgTimeout.toNat : Int) - (50 - windowStart { resumed [] with now := 50 }) ≤ 0 :=
  ⟨resumed_scans _, rfl, ⟨[0x61, 0x62], 0x30, 0x30, rfl, by decide, by decide⟩, rfl, ⟨[0x61, 0x62], rfl, by decide, by decide⟩,
    by decide, by decide⟩

/-- The waits of a receive with no answer: the scan's refill, and the `+` write. -/
theorem witness_receive_unanswered :
    let p : Bytes := 0x24 :: [0x4F, 0x4B] ++ [0x23, 0x39, 0x61]
    { linked [] [] with phase := .refilling (.scan .sop) 0 50 none }.phase = .refilling (.scan .sop) 0 50 none ∧
      { linked [] [] with phase := .sending [0x2B] (.plus p) none }.phase = .sending [0x2B] (.plus p) none := by decide

/-- `$OK#9a` is valid and `$ab#00` is not; both shapes in RXBUF, and the two ends of the `+` write. -/
theorem witness_RecvPacketResult :
    let p : Bytes := [0x24, 0x4F, 0x4B, 0x23, 0x39, 0x61]
    let q : Bytes := [0x24, 0x61, 0x62, 0x23, 0x30, 0x30]
    let s := linked [] (p ++ [0x2B])
    s.params.wf = true ∧ FrameShape s.params.maxPacketLen p ∧ FrameShape s.params.maxPacketLen q ∧ ScansAfter s [] ∧
      [] ++ s.rxBuf = p ++ [0x2B] ∧ validateOf s.params.hexCase p = none ∧
      validateOf s.params.hexCase q = some .pktCkMismatch ∧ s.ackMode = true ∧ { s with ackMode := false }.ackMode = false ∧
      { s with phase := .sending [0x2B] (.plus p) (some .done) }.phase = .sending [0x2B] (.plus p) (some .done) ∧
      { s with phase := .sending [0x2B] (.plus p) (some .failed) }.phase = .sending [0x2B] (.plus p) (some .failed) :=
  ⟨by decide, ⟨[0x4F, 0x4B], 0x39, 0x61, rfl, by decide, by decide⟩, ⟨[0x61, 0x62], 0x30, 0x30, rfl, by decide, by decide⟩,
    linked_scans _ _, rfl, by decide, by decide, rfl, rfl, rfl, rfl⟩

/-- `$a*!#ac` decodes to five bytes, `$}#7d` is valid and malformed, `$a*~#09` decodes to 98 bytes. -/
theorem witness_RecvAndDecodeResult :
    let s := linked [] (0x24 :: [0x61, 0x2A, 0x21] ++ [0x23, 0x61, 0x63] ++ [])
    s.params.wf = true ∧ ScansAfter s [] ∧
      [] ++ s.rxBuf = 0x24 :: [0x61, 0x2A, 0x21] ++ [0x23, 0x61, 0x63] ++ [] ∧ (0x23 : Byte) ∉ ([0x61, 0x2A, 0x21] : Bytes) ∧
      ([0x61, 0x2A, 0x21] : Bytes).length + 2 ≤ s.params.maxPacketLen ∧
      validateOf s.params.hexCase (0x24 :: [0x61, 0x2A, 0x21] ++ [0x23, 0x61, 0x63]) = none ∧
      Decodes [0x61, 0x2A, 0x21] (List.replicate 5 0x61) ∧
      validateOf s.params.hexCase (0x24 :: [0x7D] ++ [0x23, 0x37, 0x64]) = none ∧ Malformed [0x7D] 0x11 ∧
      validateOf s.params.hexCase (0x24 :: [0x61, 0x2A, 0x7E] ++ [0x23, 0x30, 0x39]) = none ∧
      Decodes [0x61, 0x2A, 0x7E] (List.replicate 98 0x61) ∧ 66 < (List.replicate 98 (0x61 : Byte)).length := by
  refine ⟨by decide, linked_scans _ _, rfl, by decide, by decide, by decide, ?_, by decide, .escMissing, by decide, ?_,
    by decide⟩
  · exact .run 0x61 0x21 (by decide) (by unfold LegalCount; decide) .nil
  · exact .run 0x61 0x7E (by decide) (by unfold LegalCount; decide) .nil

/-- A stray `+` (rule R262), and a body at the limit with MAX_PACKET_LEN = 8, at a receive's start and resumed after `$a`. -/
theorem witness_ScanFailures :
    let s := linked [] [0x2B, 0x24]
    let small := { ps with maxPacketLen := 8, outCap := 16 }
    let u := { linked [] [0x24, 0x61, 0x62, 0x63, 0x64, 0x65, 0x66, 0x67, 0x23] with params := small }
    let v := { resumed [0x62, 0x63, 0x64, 0x65, 0x66, 0x67, 0x23] with params := small }
    ScansAfter s [] ∧ 2 ≤ s.params.maxPacketLen ∧ s.rxBuf = 0x2B :: [0x24] ∧ (0x2B : Byte) ≠ 0x24 ∧
      ScansAfter u [] ∧ [] ++ u.rxBuf = 0x24 :: [0x61, 0x62, 0x63, 0x64, 0x65, 0x66, 0x67] ++ [0x23] ∧
      ScansAfter v [0x24, 0x61] ∧
      [0x24, 0x61] ++ v.rxBuf = 0x24 :: [0x61, 0x62, 0x63, 0x64, 0x65, 0x66, 0x67] ++ [0x23] ∧
      ([0x61, 0x62, 0x63, 0x64, 0x65, 0x66, 0x67] : Bytes).length + 1 = v.params.maxPacketLen :=
  ⟨linked_scans _ _, by decide, rfl, by decide, .inl ⟨rfl, rfl, rfl⟩, rfl,
    .inr ⟨.body, 0, 50, rfl, rfl, ⟨[0x61], rfl, (by decide : (0x23 : Byte) ∉ [0x61]), (by decide : 2 < 8)⟩, rfl⟩, rfl, rfl⟩

/-! ### States of the invariant -/

/-- A receive at its start, with ACK_MODE = 0 and any coming turns. -/
def receiving (cmd : Word) (rxBuf : Bytes) (agenda : List Turn) : State :=
  { linked [] rxBuf with curCmd := cmd, ackMode := false, agenda := agenda }

theorem receiving_inv (cmd : Word) (rxBuf : Bytes) (agenda : List Turn) (h : rxBuf.length ≤ 16) :
    StateInv (receiving cmd rxBuf agenda) where
  params := (by decide : ps.wf = true)
  timeout := (by decide : 0 < Config.resetTimeout.toNat)
  port := (by decide : 0 < Config.resetPort.toNat)
  memWf := rfl
  memInWindows := fun c hc => by cases hc
  rxBuf := h
  rxBufUnlinked := fun h => by cases h
  linkOpen := fun _ => rfl
  closed := fun h => by cases h
  outLen := Nat.zero_le _
  arg := (by decide : (0 : Word).extractLsb' 16 16 = 0)
  busy := fun _ => ⟨rfl, rfl, rfl, rfl⟩
  errDone := fun h => by cases h
  errCode := rfl
  settled := fun h => by cases h
  tArm := fun h => by cases h
  phase := ⟨rfl, rfl⟩

/-- An ACK wait in its refill, armed at 0, begun at 49 with the bound rounded up to 10, at the latest tick of rule R203. -/
def waiting (agenda : List Turn) : State :=
  { receiving 0x21 [] agenda with phase := .refilling .ack 49 10 none, armed := true, now := 59, rxStream := [0x2B] }

theorem waiting_inv (agenda : List Turn) : StateInv (waiting agenda) where
  params := (by decide : ps.wf = true)
  timeout := (by decide : 0 < Config.resetTimeout.toNat)
  port := (by decide : 0 < Config.resetPort.toNat)
  memWf := rfl
  memInWindows := fun c hc => by cases hc
  rxBuf := by simp [waiting, receiving, linked]
  rxBufUnlinked := fun h => by cases h
  linkOpen := fun _ => rfl
  closed := fun h => by cases h
  outLen := Nat.zero_le _
  arg := (by decide : (0 : Word).extractLsb' 16 16 = 0)
  busy := fun _ => ⟨rfl, rfl, rfl, rfl⟩
  errDone := fun h => by cases h
  errCode := rfl
  settled := fun h => by cases h
  tArm := fun _ => (by decide : (0 : Int) ≤ 59)
  phase := ⟨rfl, rfl, rfl,
    ⟨(by decide : (0 : Int) < 50 - (49 - 0)), rfl, (by decide : (0 : Int) ≤ 49), (by decide : (49 : Int) ≤ 59)⟩,
    ⟨(fun h => nomatch h), fun h => absurd rfl h⟩, .inr (rfl : decodeWord 0x21 = .ok .checkAck)⟩

theorem witness_ChunkOverrunBound :
    StateInv (waiting []) ∧ ∃ t, takeEvent (.chunk 1) (waiting []) = .next t :=
  ⟨waiting_inv _, next_of_isSome (by decide)⟩

/-- RECV_PACKET of `$ab#00`, which ends in 0x1A. -/
theorem witness_RecvPacketErrorsExcluded :
    let s := receiving 0x130 [0x24, 0x61, 0x62, 0x23, 0x30, 0x30] []
    StateInv s ∧ InReceive s ∧ s.curCmd = 0x130 ∧ ∃ t, step s = .next t ∧ t.err = true :=
  ⟨receiving_inv _ _ _ (by decide), ⟨by decide, by decide, by decide⟩, rfl, _, rfl, rfl⟩

/-- `$OK#9a` and a `+` after it, sent by the peer during the command and taken in one chunk. -/
theorem witness_ReceiveConservesTheStream :
    let s := receiving 0x130 [] [.block, .peerSend [0x24, 0x4F, 0x4B, 0x23, 0x39, 0x61, 0x2B], .event (.chunk 7), .block]
    StateInv s ∧ InReceive s ∧ s.phase = .start ∧ s.link = true ∧
      (∀ m, m < 4 → (ranTo m s).map (·.busy) = some true) ∧
      ∃ t, core.run 4 s = .next t ∧ t.phase = .idle ∧ t.err = false :=
  ⟨receiving_inv _ _ _ (by decide), ⟨by decide, by decide, by decide⟩, rfl, rfl, by decide, _, rfl, rfl, rfl⟩

theorem witness_CommandFrames :
    ∃ t, exec .checkAck (linked [] []) = .next t ∧ t.phase ≠ .idle := ⟨_, rfl, by decide⟩

/-- CONNECT's end, as a state of the invariant. -/
def opened : State :=
  { State.reset with
    phase := .opening (some .opened), curCmd := 0x10, transportOpen := true, ackMode := false }

theorem opened_inv : StateInv opened where
  params := by decide
  timeout := by decide
  port := by decide
  memWf := rfl
  memInWindows := fun c hc => by cases hc
  rxBuf := by decide
  rxBufUnlinked := fun _ => rfl
  linkOpen := fun h => by cases h
  closed := fun h => by cases h
  outLen := by decide
  arg := by decide
  busy := fun _ => ⟨rfl, rfl, rfl, rfl⟩
  errDone := fun h => by cases h
  errCode := rfl
  settled := fun h => by cases h
  tArm := fun h => by cases h
  phase := ⟨rfl, rfl, rfl, rfl, fun _ => rfl⟩

/-- LINK written 1 by CONNECT, and written 0 by DISCONNECT. -/
theorem witness_LinkWriters :
    (StateInv opened ∧ opened.link = false ∧ ∃ t, step opened = .next t ∧ t.link = true) ∧
      (StateInv (receiving 0x11 [] []) ∧ (receiving 0x11 [] []).link = true ∧
        ∃ t, step (receiving 0x11 [] []) = .next t ∧ t.link = false) :=
  ⟨⟨opened_inv, rfl, _, rfl, rfl⟩, receiving_inv _ _ _ (by decide), rfl, _, rfl, rfl⟩

/-- ACK_MODE written by CONNECT, and by SET_ACK_MODE on. -/
theorem witness_AckModeWriters :
    (StateInv opened ∧ ∃ t, step opened = .next t ∧ t.ackMode ≠ opened.ackMode) ∧
      (StateInv (receiving 0x112 [] []) ∧
        ∃ t, step (receiving 0x112 [] []) = .next t ∧ t.ackMode ≠ (receiving 0x112 [] []).ackMode) :=
  ⟨⟨opened_inv, _, rfl, by decide⟩, receiving_inv _ _ _ (by decide), _, rfl, by decide⟩

/-- A step in a command, and a host write that changes a byte of IN. -/
theorem witness_ConfigurationAndOperandsAreStable :
    (∃ t, step (receiving 0x130 [] []) = .next t ∧ (receiving 0x130 [] []).phase ≠ .idle) ∧
      (let s := { State.reset with mem := [(inBase, 0x00)], agenda := [.host (.write 0x01000000 .w8 0x61)] }
       ∃ t, step s = .next t ∧ inBase < outBase ∧ t.byteAt inBase ≠ s.byteAt inBase) :=
  ⟨⟨_, rfl, by decide⟩, _, rfl, by decide, by decide⟩

/-- A turn of the time source, and a turn of another agent. -/
theorem witness_TimeNeverDecreases :
    (∃ t, step { State.reset with agenda := [.tick 7] } = .next t ∧ t.now = 7) ∧
      (∃ t, step { State.reset with agenda := [.block] } = .next t) := ⟨⟨_, rfl, rfl⟩, _, rfl⟩

/-- The edges of rule R310: ports 0, 65536, 1 and 65535; a timeout of 0 and of 1; parameters that break rule R5;
a DEFAULT_RX_TIMEOUT of 0 with a timeout given. -/
theorem witness_ConstructChecks :
    ((0 : Int) < 1 ∧ (65535 : Int) < 65536) ∧ ((1 : Int) ≤ 1 ∧ (65535 : Int) ≤ 65535) ∧
      (some (0 : Int)).getD (ps.defaultRxTimeout : Int) ≤ 0 ∧ 0 < (some (1 : Int)).getD (ps.defaultRxTimeout : Int) ∧
      (none : Option Int).getD (ps.defaultRxTimeout : Int) < 2 ^ 32 ∧ ps.wf = true ∧
      Params.wf { ps with rxChunkMax := 0 } = false ∧ { ps with defaultRxTimeout := 0 }.defaultRxTimeout = 0 ∧
      0 < (some (1 : Int)).getD ({ ps with defaultRxTimeout := 0 }.defaultRxTimeout : Int) := by decide

theorem witness_ResetStateValues : ∃ s, construct ps [] 65535 none = .next s := ⟨_, rfl⟩

theorem witness_InvariantAtConstruction : ∃ s, construct ps [0x61] 1 (some 1) = .next s := ⟨_, rfl⟩

theorem witness_StepKeepsInvariant :
    StateInv (waiting [.event (.chunk 1), .block]) ∧ ∃ t, step (waiting [.event (.chunk 1), .block]) = .next t :=
  ⟨waiting_inv _, next_of_isSome (by decide)⟩

end Sys2Proof.Tests
end

section
/-! SUPPORT. The invariant taken apart: what holds whatever PHASE is, the clear record of a command in progress, and how each
shared operation of Machine/Ops.lean and Machine/RxPath.lean brings a state of the invariant about. -/
namespace Sys2Proof.Machine
open Sys2Proof.Safety

/-! ## The invariant without PHASE and the record -/

/-- The part of the invariant that speaks neither of PHASE, nor of the deadline, nor of the record of STATUS, RESULT and
OUT_LEN. -/
structure CoreInv (s : State) : Prop where
  params : s.params.wf = true
  timeout : 0 < s.cfgTimeout.toNat
  port : 0 < s.cfgPort.toNat
  memWf : Memory.wf s.mem = true
  memInWindows : ∀ c ∈ s.mem, inWindow inBase s.params.inCap c.1 1 = true ∨ inWindow outBase s.params.outCap c.1 1 = true
  rxBuf : s.rxBuf.length ≤ s.params.rxChunkMax
  rxBufUnlinked : s.link = false → s.rxBuf = []
  linkOpen : s.link = true → s.transportOpen = true
  closed : s.transportOpen = false → s.rxStream = [] ∧ s.peerClosed = false
  arg : s.arg.extractLsb' 16 16 = 0

/-- CoreInv with the clear record of a command in progress (40_command_cycle.md rule R120; 20_memory.md rule R69). -/
structure RunInv (s : State) : Prop extends CoreInv s where
  done : s.done = false
  err : s.err = false
  errCode : s.errCode = 0
  result : s.result = 0
  outLen : s.outLen = 0
  settled : s.outputsSettled = false

/-- RunInv inside a deadline window on an open link, as ACK waits and frame scans run: ACC is empty or the scan's own. -/
structure ReadInv (s : State) : Prop extends RunInv s where
  armed : s.armed = true
  window : s.tArm ≤ s.now
  link : s.link = true

theorem coreInv_of_stateInv {s : State} (h : StateInv s) : CoreInv s := { h with }

theorem runInv_of_stateInv {s : State} (h : StateInv s) (hp : s.phase ≠ .idle) : RunInv s := by
  obtain ⟨hd, he, hr, ho⟩ := h.busy hp
  refine { coreInv_of_stateInv h with done := hd, err := he, errCode := ?_, result := hr, outLen := ho, settled := ?_ }
  · simpa [he] using h.errCode
  · cases hs : s.outputsSettled
    · rfl
    · exact absurd (h.settled hs) (by simp [hd])

theorem readInv_of_stateInv {s : State} (h : StateInv s) (hp : s.phase ≠ .idle) (ha : s.armed = true)
    (hl : s.link = true) : ReadInv s :=
  { runInv_of_stateInv h hp with armed := ha, window := h.tArm ha, link := hl }

/-- A command in progress is in the invariant when its phase is. -/
theorem RunInv.stateInv {s : State} (h : RunInv s) (ha : s.armed = true → s.tArm ≤ s.now) (hp : PhaseOk s) : StateInv s :=
  { h.toCoreInv with
    outLen := by simp [h.outLen]
    busy := fun _ => ⟨h.done, h.err, h.result, h.outLen⟩
    errDone := fun he => absurd he (by simp [h.err])
    errCode := by simp [h.err, h.errCode]
    settled := fun hs => absurd hs (by simp [h.settled])
    tArm := ha
    phase := hp }

/-! ## Fail and Complete end in the invariant -/

theorem stateInv_fail {s : State} (h : CoreInv s) (ha : s.acc = []) (e : Err) (r : Word) : StateInv (fail e r s) :=
  { h with
    memWf := Memory.wf_clearFrom _ _ h.memWf
    memInWindows := fun c hc => h.memInWindows c (Memory.mem_clearFrom _ _ _ hc).2
    outLen := Nat.zero_le _
    busy := fun hp => absurd rfl hp
    errDone := fun _ => rfl
    errCode := ⟨e, rfl⟩
    settled := fun _ => rfl
    tArm := nofun
    phase := ⟨rfl, ha⟩ }

/-- A byte of a stored sequence lies in its window. -/
theorem inWindow_of_mem {base cap a n k : Nat} (h : inWindow base cap a n = true) (hk : a ≤ k ∧ k < a + n) :
    inWindow base cap k 1 = true := by
  simp only [inWindow, Bool.and_eq_true, decide_eq_true_eq] at h ⊢
  omega

theorem stateInv_finish {s : State} (h : CoreInv s) (ha : s.acc = []) {out : Bytes} (ho : out.length ≤ s.params.outCap)
    (r : Word) : StateInv (finish out r s) := by
  have hcap : s.params.outCap ≤ 2 ^ 24 := (wf_facts h.params).2.2.2.2.2.1
  have hout : inWindow outBase s.params.outCap outBase out.length = true := by simp [inWindow, ho]
  exact { h with
    memWf := Memory.wf_storeAll _ _ _ h.memWf
    memInWindows := fun c hc => (Memory.mem_storeAll _ _ _ _ hc).elim (fun hk => .inr (inWindow_of_mem hout hk))
      (h.memInWindows c)
    outLen := by rw [finish_outLen, BitVec.toNat_ofNat, Nat.mod_eq_of_lt (by omega)]; exact ho
    busy := fun hp => absurd rfl hp
    errDone := nofun
    errCode := rfl
    settled := fun _ => rfl
    tArm := nofun
    phase := ⟨rfl, ha⟩ }

theorem stateInv_complete {s : State} (h : CoreInv s) (ha : s.acc = []) (out : Bytes) (r : Word) :
    StateInv (complete out r s) := by
  rcases complete_cases out r s with ⟨hl, e⟩ | ⟨-, e⟩ <;> rw [e]
  · exact stateInv_finish h ha hl r
  · exact stateInv_fail h ha _ _

/-- A failed scan, on an open link: the bytes drawn for RXBUF fit, and ACC is dropped. -/
theorem stateInv_scanFail {s : State} (h : CoreInv s) (hl : s.link = true) (e : Err) (r : Word) :
    StateInv (scanFail e r s) :=
  stateInv_fail (s := drawRxBuf { s with acc := [] })
    { h with rxBuf := scanFail_rxBuf_length e r s, rxBufUnlinked := fun hk => absurd hl (by simpa using hk) } rfl e r

theorem stateInv_readFail {s : State} (h : CoreInv s) (hl : s.link = true) {pt : ReadPoint}
    (ha : pt = .ack → s.acc = []) (e : Err) : StateInv (readFail pt e s) := by
  cases pt with
  | ack => exact stateInv_fail h (ha rfl) e 0
  | scan pt => exact stateInv_scanFail h hl e 0

/-- Bytes are read from the front of RXBUF, and ACC is written. -/
theorem ReadInv.shorten {s : State} (h : ReadInv s) {rest : Bytes} (hr : rest.length ≤ s.rxBuf.length) (acc : Bytes) :
    ReadInv { s with rxBuf := rest, acc := acc } :=
  { h with rxBuf := hr.trans h.rxBuf, rxBufUnlinked := fun hk => absurd h.link (by simpa using hk) }

theorem ReadInv.stateInv {s : State} (h : ReadInv s) (hp : PhaseOk s) : StateInv s :=
  h.toRunInv.stateInv (fun _ => h.window) hp

/-- Arm opens the window now. -/
theorem RunInv.arm {s : State} (h : RunInv s) (hl : s.link = true) : ReadInv (arm s) :=
  { h with armed := rfl, window := le_refl _, link := hl }

/-! ## The two readers -/

/-- The commands that wait for an acknowledgement. -/
def AcksCmd (s : State) : Prop :=
  (∃ ck, decodeWord s.curCmd = .ok (.sendPacket ck true)) ∨ decodeWord s.curCmd = .ok .checkAck

/-- The commands that receive a frame. -/
def ReceivesCmd (s : State) : Prop :=
  (∃ v, decodeWord s.curCmd = .ok (.recvPacket v)) ∨ decodeWord s.curCmd = .ok .recvAndDecode

/-- ACC and CURCMD as a refill's reader has them. -/
def ReadsAt (s : State) : ReadPoint → Prop
  | .ack => s.acc = [] ∧ AcksCmd s
  | .scan pt => ScanOk s.params.maxPacketLen s.acc pt ∧ ReceivesCmd s

/-- What PhaseOk says in a refill, the same for both readers. -/
theorem phaseOk_refilling_iff {s : State} {pt : ReadPoint} {t0 w : Int} {answer : Option RxAnswer}
    (hp : s.phase = .refilling pt t0 w answer) :
    PhaseOk s ↔ s.armed = true ∧ s.link = true ∧ WaitOk s t0 w ∧ AnswerOk s answer ∧ ReadsAt s pt := by
  cases pt <;> simp only [PhaseOk, hp, ReadsAt, AcksCmd, ReceivesCmd]
  tauto

theorem acc_nil_of_readsAt {s : State} {pt : ReadPoint} (h : ReadsAt s pt) : pt = .ack → s.acc = [] := by
  rintro rfl
  exact h.1

/-! ## Refill -/

/-- The bound that Refill waits for satisfies the rule from the moment it begins (42_rx_path.md rule R193). -/
theorem waitOk_now {s : State} (hr : 0 < remaining s) (hw : s.tArm ≤ s.now) :
    WaitOk s s.now (if remaining s < (s.params.ticksPerUnit : Int) then (s.params.ticksPerUnit : Int) else remaining s) :=
  ⟨hr, rfl, hw, le_refl _⟩

/-- Refill with RXBUF empty: it waits, or ends the command. -/
theorem stateInv_refill {s : State} (h : ReadInv s) {pt : ReadPoint} (hb : s.rxBuf = []) (hp : ReadsAt s pt) :
    StateInv (refill pt s) := by
  rcases refill_cases pt s with ⟨-, e⟩ | ⟨hr, e⟩ <;> rw [e]
  · exact stateInv_readFail h.toCoreInv h.link (acc_nil_of_readsAt hp) _
  · exact ReadInv.stateInv { h with }
      ((phaseOk_refilling_iff rfl).mpr ⟨h.armed, h.link, waitOk_now hr h.window, by simp [AnswerOk, hb], hp⟩)

/-- A refill after its wait: the invariant is kept when going on with the bytes keeps it. -/
theorem stateInv_afterRefill {s : State} (h : StateInv s) (hl : s.link = true) {k : State → State} {pt : ReadPoint}
    (ha : pt = .ack → s.acc = []) (answer : Option RxAnswer) (hk : StateInv (k s)) :
    StateInv (afterRefill k pt answer s) := by
  rcases afterRefill_cases k pt answer s with ⟨e, -⟩ | ⟨-, e⟩ | ⟨c, e, -⟩ <;> rw [e]
  exacts [h, hk, stateInv_readFail (coreInv_of_stateInv h) hl ha c]

/-- A write after its wait, with ACC empty. -/
theorem stateInv_afterTx {s : State} (h : StateInv s) (ha : s.acc = []) {k : State → State} (answer : Option TxAnswer)
    (hk : StateInv (k s)) : StateInv (afterTx k answer s) := by
  rcases afterTx_cases k answer s with ⟨-, e⟩ | ⟨-, e⟩ | ⟨-, e⟩ <;> rw [e]
  exacts [h, hk, stateInv_fail (coreInv_of_stateInv h) ha _ _]

theorem stateInv_requireLink {s : State} (h : CoreInv s) (ha : s.acc = []) {k : State → State}
    (hk : s.link = true → StateInv (k s)) : StateInv (requireLink k s) := by
  rcases requireLink_cases k s with ⟨hl, e⟩ | ⟨-, e⟩ <;> rw [e]
  exacts [hk hl, stateInv_fail h ha _ _]

theorem stateInv_requireInLen {s : State} (h : CoreInv s) (ha : s.acc = []) {k : State → State}
    (hk : StateInv (k s)) : StateInv (requireInLen k s) := by
  rcases requireInLen_cases k s with ⟨-, e⟩ | ⟨-, e⟩ <;> rw [e]
  exacts [hk, stateInv_fail h ha _ _]

/-! ## AckWait -/

theorem stateInv_ackByte {s : State} (h : ReadInv s) (ha : s.acc = []) (hc : AcksCmd s) : StateInv (ackByte s) := by
  unfold ackByte
  split
  next hb => exact stateInv_refill h hb ⟨ha, hc⟩
  next b rest hb =>
    have hrest : ReadInv { s with rxBuf := rest } := h.shorten (by simp [hb]) s.acc
    have hpushed : ReadInv { s with rxBuf := b :: rest } := h.shorten (by simp [hb]) s.acc
    split
    · exact stateInv_complete hrest.toCoreInv ha _ _
    split
    · exact stateInv_fail hrest.toCoreInv ha _ _
    · exact stateInv_fail hpushed.toCoreInv ha _ _

theorem stateInv_ackWait {s : State} (h : RunInv s) (hl : s.link = true) (ha : s.acc = []) (hc : AcksCmd s) :
    StateInv (ackWait s) := stateInv_ackByte (h.arm hl) ha hc

/-! ## RecvFrame -/

theorem scanOk_succ {max : Nat} {acc : Bytes} {pt : ScanPoint} (h : ScanOk max acc pt) : ScanOk (max + 1) acc pt := by
  cases pt with
  | sop => exact h
  | body | ck0 | ck1 =>
    obtain ⟨body, e, hb, hl⟩ := h
    exact ⟨body, e, hb, by omega⟩

/-- A scan from a point that it has reached: the invariant is kept when what is done with a whole frame keeps it. -/
theorem stateInv_scanFrom {s : State} (h : ReadInv s) (hc : ReceivesCmd s) {pt : ScanPoint}
    (hs : ScanOk s.params.maxPacketLen s.acc pt) {k : Bytes → State → State}
    (hk : ∀ p rest, FrameShape s.params.maxPacketLen p → ReadInv { s with rxBuf := rest, acc := [] } →
      StateInv (k p { s with rxBuf := rest, acc := [] })) : StateInv (scanFrom k pt s) := by
  have hspec := scan_spec s.params.maxPacketLen s.rxBuf pt s.acc (wf_facts h.params).1 ⟨scanOk_succ hs, fun _ => hs⟩
  unfold scanFrom
  split
  next p rest e =>
    rw [e] at hspec
    exact hk p rest hspec.2 (h.shorten (scan_frame_suffix e).length_le [])
  next pt' acc' e =>
    rw [e] at hspec
    exact stateInv_refill (h.shorten (rest := []) (Nat.zero_le _) acc') rfl ⟨hspec.2, hc⟩
  next => exact stateInv_scanFail h.toCoreInv h.link _ _
  next => exact stateInv_scanFail h.toCoreInv h.link _ _

theorem stateInv_recvFrame {s : State} (h : RunInv s) (hl : s.link = true) (hc : ReceivesCmd s)
    {k : Bytes → State → State}
    (hk : ∀ p u, u.curCmd = s.curCmd → FrameShape u.params.maxPacketLen p → ReadInv u → u.acc = [] → StateInv (k p u)) :
    StateInv (recvFrame k s) :=
  stateInv_scanFrom (RunInv.arm (s := { s with acc := [] }) { h with } hl) hc (pt := .sop) rfl
    fun p _ hp hr => hk p _ rfl hp hr rfl

/-- A frame in hand: a format error, the `+`, or the command's end. -/
theorem stateInv_validateAndAck {s : State} (h : ReadInv s) (ha : s.acc = []) {p : Bytes}
    (hp : FrameShape s.params.maxPacketLen p)
    (hc : decodeWord s.curCmd = .ok (.recvPacket true) ∨ decodeWord s.curCmd = .ok .recvAndDecode)
    {k : Bytes → State → State} (hk : StateInv (k p s)) : StateInv (validateAndAck k p s) := by
  unfold validateAndAck
  split
  next e _ => exact stateInv_fail h.toCoreInv ha e 0
  next hv =>
    split
    · exact ReadInv.stateInv { h with } ⟨h.armed, ha, h.link, rfl, hp, hv, hc⟩
    · exact hk

theorem stateInv_deliverDecoded {s : State} (h : CoreInv s) (ha : s.acc = []) (p : Bytes) :
    StateInv (deliverDecoded p s) := by
  unfold deliverDecoded
  split
  exacts [stateInv_fail h ha _ _, stateInv_complete h ha _ _]

theorem stateInv_recvPacketFrame {s : State} (h : ReadInv s) (ha : s.acc = []) {p : Bytes}
    (hp : FrameShape s.params.maxPacketLen p) {v : Bool} (hc : decodeWord s.curCmd = .ok (.recvPacket v)) :
    StateInv (recvPacketFrame v p s) := by
  have hraw : StateInv (deliverRaw p s) := stateInv_complete h.toCoreInv ha p 0
  cases v with
  | false => exact hraw
  | true => exact stateInv_validateAndAck h ha hp (.inl hc) hraw

end Sys2Proof.Machine
end

section
/-! SUPPORT. Every command's step keeps the invariant, by the phase in which it finds the command: its start, or the wait
that PhaseOk ties to it. -/
namespace Sys2Proof.Machine
open Sys2Proof.Safety

/-- The invariant is kept when a command's step answers a next state. -/
def KeepsInv (o : Host.Outcome State Fault Refusal) : Prop := ∀ t, o = .next t → StateInv t

theorem keepsInv_next {t : State} (h : StateInv t) : KeepsInv (.next t) := fun _ e => by cases e; exact h

/-! ## At a command's start -/

theorem stateInv_completeWith {s : State} (h : CoreInv s) (ha : s.acc = []) (r : Except Err Bytes) :
    StateInv (completeWith r s) := by
  cases r with
  | error e => exact stateInv_fail h ha e 0
  | ok out => exact stateInv_complete h ha out 0

/-- The transport is closed or left, LINK becomes 0 and RXBUF is emptied, as DISCONNECT and the abort do. -/
theorem CoreInv.unlink {s u : State} (h : CoreInv s) (hu : u = s ∨ u = closeTransport s) :
    CoreInv { u with link := false, rxBuf := [] } := by
  rcases hu with rfl | rfl
  · exact { h with rxBuf := Nat.zero_le _, rxBufUnlinked := fun _ => rfl, linkOpen := nofun }
  · exact { h with rxBuf := Nat.zero_le _, rxBufUnlinked := fun _ => rfl, linkOpen := nofun, closed := fun _ => ⟨rfl, rfl⟩ }

/-- PHASE at a command's start, with the deadline disarmed and ACC empty, as PhaseOk has it there. -/
structure AtStart (s : State) : Prop extends RunInv s where
  phase : s.phase = .start
  armed : s.armed = false
  acc : s.acc = []

theorem atStart_of_stateInv {s : State} (h : StateInv s) (hp : s.phase = .start) : AtStart s := by
  have hw := h.phase
  simp only [PhaseOk, hp] at hw
  obtain ⟨harm, hacc⟩ := hw
  exact { runInv_of_stateInv h (by simp [hp]) with phase := hp, armed := harm, acc := hacc }

/-- A command that goes on to its first wait with the deadline still disarmed. -/
theorem AtStart.stateInv {s : State} (h : AtStart s) {p : Phase} (hp : PhaseOk { s with phase := p }) :
    StateInv { s with phase := p } :=
  RunInv.stateInv { h with } (fun hk => absurd hk (by simp [h.armed])) hp

theorem stateInv_sendPacketStart {s : State} (h : AtStart s) {ck chk : Bool}
    (hd : decodeWord s.curCmd = .ok (.sendPacket ck chk)) : StateInv (sendPacketStart ck s) := by
  refine stateInv_requireInLen h.toCoreInv h.acc ?_
  split
  · exact stateInv_fail h.toCoreInv h.acc _ _
  · exact stateInv_requireLink h.toCoreInv h.acc fun hl => h.stateInv ⟨h.armed, h.acc, hl, .inl ⟨ck, chk, hd⟩⟩

/-- The one-byte sends, each with its own write, as PhaseOk lists them. -/
def SendsByte (s : State) (packet : Bytes) : Prop :=
  (decodeWord s.curCmd = .ok .sendAck ∧ packet = [0x2B]) ∨ (decodeWord s.curCmd = .ok .sendNack ∧ packet = [0x2D]) ∨
    (decodeWord s.curCmd = .ok .sendInterrupt ∧ packet = [0x03])

theorem stateInv_sendByte_start {s : State} (h : AtStart s) {b : Byte} (hd : SendsByte s [b]) : StateInv (sendByte b s) := by
  have e : sendByte b s = requireLink (beginTx [b] .command) s := by simp only [sendByte, h.phase]
  rw [e]
  exact stateInv_requireLink h.toCoreInv h.acc fun hl => h.stateInv ⟨h.armed, h.acc, hl, .inr hd⟩

/-- What a command's own step does at its start keeps the invariant, command by command. -/
theorem keepsInv_exec_start {s : State} (h : AtStart s) {i : Instr} (hd : decodeWord s.curCmd = .ok i) :
    KeepsInv (exec i s) := by
  have hc : CoreInv s := h.toCoreInv
  have ha : s.acc = [] := h.acc
  cases i with
  | encodePayload => exact keepsInv_next (stateInv_requireInLen hc ha (stateInv_complete hc ha _ _))
  | decodePayload => exact keepsInv_next (stateInv_requireInLen hc ha (stateInv_completeWith hc ha _))
  | computeChecksum => exact keepsInv_next (stateInv_requireInLen hc ha (stateInv_complete hc ha _ _))
  | createPacket ck => exact keepsInv_next (stateInv_requireInLen hc ha (stateInv_completeWith hc ha _))
  | splitPacket =>
    refine keepsInv_next (stateInv_requireInLen hc ha ?_)
    dsimp only
    split
    exacts [stateInv_fail hc ha _ _, stateInv_complete hc ha _ _]
  | validatePacket =>
    refine keepsInv_next (stateInv_requireInLen hc ha ?_)
    split
    exacts [stateInv_fail hc ha _ _, stateInv_complete hc ha _ _]
  | connect =>
    refine keepsInv_next ?_
    simp only [h.phase]
    split
    · exact stateInv_fail hc ha _ _
    · exact h.stateInv ⟨hd, h.armed, ha, by simpa using ‹¬ s.link = true›, nofun⟩
  | disconnect =>
    exact keepsInv_next (stateInv_complete (hc.unlink (by split <;> simp)) (by dsimp only; split <;> exact ha) _ _)
  | setAckMode enable => exact keepsInv_next (stateInv_complete (s := { s with ackMode := enable }) { hc with } ha _ _)
  | sendPacket ck chk =>
    have e : exec (.sendPacket ck chk) s = .next (sendPacketStart ck s) := by simp only [exec, execSendPacket, h.phase]
    exact e ▸ keepsInv_next (stateInv_sendPacketStart h hd)
  | checkAck =>
    have e : exec .checkAck s = .next (requireLink ackWait s) := by simp only [exec, execCheckAck, h.phase]
    exact e ▸ keepsInv_next (stateInv_requireLink hc ha fun hl => stateInv_ackWait h.toRunInv hl ha (.inr hd))
  | sendAck => exact keepsInv_next (stateInv_sendByte_start h (.inl ⟨hd, rfl⟩))
  | sendNack => exact keepsInv_next (stateInv_sendByte_start h (.inr (.inl ⟨hd, rfl⟩)))
  | sendInterrupt => exact keepsInv_next (stateInv_sendByte_start h (.inr (.inr ⟨hd, rfl⟩)))
  | recvPacket v =>
    have e : exec (.recvPacket v) s = .next (requireLink (recvFrame (recvPacketFrame v)) s) := by
      simp only [exec, execRecvPacket, h.phase]
    exact e ▸ keepsInv_next (stateInv_requireLink hc ha fun hl => stateInv_recvFrame h.toRunInv hl (.inl ⟨v, hd⟩)
      fun p u hu hp hr hacc => stateInv_recvPacketFrame hr hacc hp (hu ▸ hd))
  | recvAndDecode =>
    have e : exec .recvAndDecode s = .next (requireLink (recvFrame (validateAndAck deliverDecoded)) s) := by
      simp only [exec, execRecvAndDecode, h.phase]
    exact e ▸ keepsInv_next (stateInv_requireLink hc ha fun hl => stateInv_recvFrame h.toRunInv hl (.inr hd)
      fun p u hu hp hr hacc => stateInv_validateAndAck hr hacc hp (.inr (hu ▸ hd))
        (stateInv_deliverDecoded hr.toCoreInv hacc p))

/-! ## In a command's wait -/

theorem instr_of_decodeWord {w : Word} {i j : Instr} (hi : decodeWord w = .ok i) (hj : decodeWord w = .ok j) : j = i :=
  Except.ok.inj (hj.symm.trans hi)

theorem keepsInv_exec_opening {s : State} (h : StateInv s) {answer : Option OpenAnswer} (hp : s.phase = .opening answer)
    {i : Instr} (hd : decodeWord s.curCmd = .ok i) : KeepsInv (exec i s) := by
  have hw := h.phase
  simp only [PhaseOk, hp] at hw
  obtain ⟨hcmd, -, ha, -, hopen⟩ := hw
  obtain rfl : i = .connect := instr_of_decodeWord hcmd hd
  have hc := coreInv_of_stateInv h
  refine keepsInv_next ?_
  rcases answer with _ | _ | _ <;> simp only [hp]
  case none => exact h
  case some.opened =>
    exact stateInv_complete (s := { s with link := true, ackMode := true, rxBuf := [] })
      { hc with rxBuf := Nat.zero_le _, rxBufUnlinked := fun _ => rfl, linkOpen := fun _ => hopen rfl } ha _ _
  case some.failed => exact stateInv_fail hc ha _ _

/-- The write of a send command: go on, fail, or wait on. -/
theorem keepsInv_exec_sending {s : State} (h : StateInv s) {packet : Bytes} {answer : Option TxAnswer}
    (hp : s.phase = .sending packet .command answer) {i : Instr} (hd : decodeWord s.curCmd = .ok i) :
    KeepsInv (exec i s) := by
  have hw := h.phase
  simp only [PhaseOk, hp] at hw
  obtain ⟨-, ha, hl, hcmd⟩ := hw
  have hc := coreInv_of_stateInv h
  have hbyte (b : Byte) : StateInv (sendByte b s) := by
    simp only [sendByte, hp]
    exact stateInv_afterTx h ha answer (stateInv_complete hc ha _ _)
  rcases hcmd with ⟨ck, chk, hcmd⟩ | ⟨hcmd, -⟩ | ⟨hcmd, -⟩ | ⟨hcmd, -⟩ <;> obtain rfl := instr_of_decodeWord hcmd hd
  · have e : exec (.sendPacket ck chk) s = .next (afterTx (sendPacketSent chk) answer s) := by
      simp only [exec, execSendPacket, hp]
    refine e ▸ keepsInv_next (stateInv_afterTx h ha answer ?_)
    unfold sendPacketSent
    split
    next hk =>
      obtain ⟨rfl, -⟩ : chk = true ∧ s.ackMode = true := by simpa using hk
      exact stateInv_ackWait (runInv_of_stateInv h (by simp [hp])) hl ha (.inl ⟨ck, hcmd⟩)
    next => exact stateInv_complete hc ha _ _
  · exact keepsInv_next (hbyte ACK)
  · exact keepsInv_next (hbyte NACK)
  · exact keepsInv_next (hbyte INTR)

/-- The `+` of a receive: deliver the frame, fail, or wait on. -/
theorem keepsInv_exec_plus {s : State} (h : StateInv s) {packet p : Bytes} {answer : Option TxAnswer}
    (hp : s.phase = .sending packet (.plus p) answer) {i : Instr} (hd : decodeWord s.curCmd = .ok i) :
    KeepsInv (exec i s) := by
  have hw := h.phase
  simp only [PhaseOk, hp] at hw
  obtain ⟨-, ha, -, -, -, -, hcmd⟩ := hw
  have hc := coreInv_of_stateInv h
  rcases hcmd with hcmd | hcmd <;> obtain rfl := instr_of_decodeWord hcmd hd
  · have e : exec (.recvPacket true) s = .next (afterTx (deliverRaw p) answer s) := by
      simp only [exec, execRecvPacket, hp]
    exact e ▸ keepsInv_next (stateInv_afterTx h ha answer (stateInv_complete hc ha _ _))
  · have e : exec .recvAndDecode s = .next (afterTx (deliverDecoded p) answer s) := by
      simp only [exec, execRecvAndDecode, hp]
    exact e ▸ keepsInv_next (stateInv_afterTx h ha answer (stateInv_deliverDecoded hc ha p))

/-- The refill of an ACK wait. -/
theorem keepsInv_exec_ackRefill {s : State} (h : StateInv s) {t0 w : Int} {answer : Option RxAnswer}
    (hp : s.phase = .refilling .ack t0 w answer) {i : Instr} (hd : decodeWord s.curCmd = .ok i) :
    KeepsInv (exec i s) := by
  obtain ⟨harm, hl, -, -, ha, hcmd⟩ := (phaseOk_refilling_iff hp).mp h.phase
  have hgo : StateInv (afterRefill ackByte .ack answer s) := stateInv_afterRefill h hl (fun _ => ha) answer
    (stateInv_ackByte (readInv_of_stateInv h (by simp [hp]) harm hl) ha hcmd)
  rcases hcmd with ⟨ck, hcmd⟩ | hcmd <;> obtain rfl := instr_of_decodeWord hcmd hd
  · have e : exec (.sendPacket ck true) s = .next (afterRefill ackByte .ack answer s) := by
      simp only [exec, execSendPacket, hp]
    exact e ▸ keepsInv_next hgo
  · have e : exec .checkAck s = .next (afterRefill ackByte .ack answer s) := by simp only [exec, execCheckAck, hp]
    exact e ▸ keepsInv_next hgo

/-- The refill of a frame scan. -/
theorem keepsInv_exec_scanRefill {s : State} (h : StateInv s) {pt : ScanPoint} {t0 w : Int} {answer : Option RxAnswer}
    (hp : s.phase = .refilling (.scan pt) t0 w answer) {i : Instr} (hd : decodeWord s.curCmd = .ok i) :
    KeepsInv (exec i s) := by
  obtain ⟨harm, hl, -, -, hscan, hcmd⟩ := (phaseOk_refilling_iff hp).mp h.phase
  have hr : ReadInv s := readInv_of_stateInv h (by simp [hp]) harm hl
  rcases id hcmd with ⟨v, hv⟩ | hv <;> obtain rfl := instr_of_decodeWord hv hd
  · have e : exec (.recvPacket v) s = .next (afterRefill (scanFrom (recvPacketFrame v) pt) (.scan pt) answer s) := by
      simp only [exec, execRecvPacket, hp]
    exact e ▸ keepsInv_next (stateInv_afterRefill h hl (pt := .scan pt) nofun answer (stateInv_scanFrom hr hcmd hscan
      fun p rest hshape hu => stateInv_recvPacketFrame hu rfl hshape hv))
  · have e : exec .recvAndDecode s =
        .next (afterRefill (scanFrom (validateAndAck deliverDecoded) pt) (.scan pt) answer s) := by
      simp only [exec, execRecvAndDecode, hp]
    exact e ▸ keepsInv_next (stateInv_afterRefill h hl (pt := .scan pt) nofun answer (stateInv_scanFrom hr hcmd hscan
      fun p rest hshape hu => stateInv_validateAndAck hu rfl hshape (.inr hv)
        (stateInv_deliverDecoded hu.toCoreInv rfl p)))

/-- Past dispatch, whatever PHASE is. -/
theorem keepsInv_exec {s : State} (h : StateInv s) (hi : s.phase ≠ .idle) (hdis : s.phase ≠ .dispatch) {i : Instr}
    (hd : decodeWord s.curCmd = .ok i) : KeepsInv (exec i s) := by
  match hp : s.phase with
  | .idle => exact absurd hp hi
  | .dispatch => exact absurd hp hdis
  | .start => exact keepsInv_exec_start (atStart_of_stateInv h hp) hd
  | .opening _ => exact keepsInv_exec_opening h hp hd
  | .sending _ .command _ => exact keepsInv_exec_sending h hp hd
  | .sending _ (.plus _) _ => exact keepsInv_exec_plus h hp hd
  | .refilling .ack _ _ _ => exact keepsInv_exec_ackRefill h hp hd
  | .refilling (.scan _) _ _ _ => exact keepsInv_exec_scanRefill h hp hd

end Sys2Proof.Machine
end

section
/-! SUPPORT. What a step can do, said once: the block's step, a host read, a host write, an environment event; and the turn
that a step takes. -/
namespace Sys2Proof.Machine
open Sys2Proof.Safety

/-! ## The block's step -/

/-- The block's step (40_command_cycle.md rules R121, R127; 30_encoding.md rule R92). -/
inductive BlockEffect (s : State) : State → Prop where
  | idle : s.phase = .idle → BlockEffect s s
  | dispatched : s.phase = .dispatch → BlockEffect s { s with phase := .start }
  | unknown : s.phase ≠ .idle → (∀ i, decodeWord s.curCmd ≠ .ok i) → BlockEffect s (fail .unknownCommand 0 s)
  | command {i : Instr} {t : State} : s.phase ≠ .idle → s.phase ≠ .dispatch → decodeWord s.curCmd = .ok i →
      exec i s = .next t → BlockEffect s t

theorem blockEffect_of_blockStep {s t : State} (h : blockStep s = .next t) : BlockEffect s t := by
  match hp : s.phase, hd : decodeWord s.curCmd with
  | .idle, _ =>
    simp only [blockStep, hp] at h
    cases h
    exact .idle hp
  | .dispatch, .ok _ =>
    simp only [blockStep, hp, dispatchCommand, hd] at h
    cases h
    exact .dispatched hp
  | .dispatch, .error _ =>
    simp only [blockStep, hp, dispatchCommand, hd] at h
    cases h
    exact .unknown (by simp [hp]) (by simp [hd])
  | .start, .ok _ | .opening _, .ok _ | .sending .., .ok _ | .refilling .., .ok _ =>
    simp only [blockStep, hp, hd] at h
    exact .command (by simp [hp]) (by simp [hp]) hd h
  | .start, .error _ | .opening _, .error _ | .sending .., .error _ | .refilling .., .error _ =>
    simp only [blockStep, hp, hd] at h
    cases h
    exact .unknown (by simp [hp]) (by simp [hd])

/-! ## Host accesses -/

/-- A host read moves only what the host knows: the bus value, the draws, and whether it may rely on the outputs
(20_memory.md rules R67, R69; log entries 8, 15). -/
def ReadEffect (s t : State) : Prop :=
  ∃ data draws settled, t = { s with busData := data, draws := draws, outputsSettled := settled } ∧
    (settled = true → s.outputsSettled = true ∨ s.done = true)

theorem readEffect_observe (v : Word) (s : State) : ReadEffect s (observe v s) := ⟨_, _, _, rfl, .inl⟩

theorem readEffect_observeOutput (n : Nat) (v : Word) (s : State) : ReadEffect s (observeOutput n v s) := by
  unfold observeOutput
  split <;> exact ⟨_, _, _, rfl, .inl⟩

theorem readEffect_readStatus (s : State) : ReadEffect s (readStatus s) :=
  ⟨_, _, _, rfl, by simp⟩

theorem readEffect_of_readReg {r : Reg} {s t : State} (h : readReg r s = .next t) : ReadEffect s t := by
  cases r <;> cases h
  case status => exact readEffect_readStatus s
  case result | outLen => exact readEffect_observeOutput _ _ s
  all_goals exact readEffect_observe _ s

theorem readEffect_of_hostRead {addr : Word} {width : Width} {s t : State} (h : hostRead addr width s = .next t) :
    ReadEffect s t := by
  unfold hostRead at h
  dsimp only at h
  split at h
  · cases h
  split at h
  · split at h
    · exact readEffect_of_readReg h
    · cases h
  · split at h
    · cases h
      exact readEffect_observe _ s
    split at h <;> cases h
    exact readEffect_observeOutput _ _ s

/-- What a host write can do: while no command is in progress issue one or store an operand, and else only abort
(20_memory.md rules R61, R62; 43_link_control.md rule R222). -/
inductive WriteEffect (s : State) : State → Prop where
  | issue (v : Word) : s.phase = .idle → WriteEffect s (issue v s)
  | arg (v : Word) : s.phase = .idle → WriteEffect s { s with arg := argStored v }
  | inLen (v : Word) : s.phase = .idle → WriteEffect s { s with inLen := v }
  | bytes (a : Nat) (bs : Bytes) : s.phase = .idle → inWindow inBase s.params.inCap a bs.length = true →
      WriteEffect s { s with mem := Memory.storeAll s.mem a bs }
  | abort : s.phase ≠ .idle → WriteEffect s (abort s)

theorem busy_iff (s : State) : s.busy = true ↔ s.phase ≠ .idle := by simp [State.busy]

theorem not_busy_iff (s : State) : ¬ s.busy = true ↔ s.phase = .idle := by simp [State.busy]

theorem leBytes_length (n v : Nat) : (leBytes n v).length = n := by
  induction n generalizing v with
  | zero => rfl
  | succ n ih => simp [leBytes, ih]

theorem writeEffect_of_writeCmd {v : Word} {s t : State} (h : writeCmd v s = .next t) : WriteEffect s t := by
  unfold writeCmd at h
  split at h
  next hb =>
    cases h
    exact .issue v ((not_busy_iff s).mp (by simpa using hb))
  next hb =>
    split at h <;> cases h
    exact .abort ((busy_iff s).mp (by simpa using hb))

theorem writeEffect_of_writeReg {r : Reg} {v : Word} {s t : State} (h : writeReg r v s = .next t) : WriteEffect s t := by
  cases r
  case cmd => exact writeEffect_of_writeCmd h
  case arg =>
    simp only [writeReg] at h
    split at h <;> cases h
    exact .arg v ((not_busy_iff s).mp ‹_›)
  case inLen =>
    simp only [writeReg] at h
    split at h <;> cases h
    exact .inLen v ((not_busy_iff s).mp ‹_›)
  all_goals cases h

theorem writeEffect_of_hostWrite {addr : Word} {width : Width} {v : Word} {s t : State}
    (h : hostWrite addr width v s = .next t) : WriteEffect s t := by
  unfold hostWrite at h
  dsimp only at h
  split at h
  · cases h
  split at h
  · split at h
    · exact writeEffect_of_writeReg h
    · cases h
  · split at h
    next hw =>
      split at h <;> cases h
      exact .bytes _ _ ((not_busy_iff s).mp ‹_›) (by rw [leBytes_length]; exact hw)
    · split at h <;> cases h

/-! ## Environment events -/

/-- What an event can do: it ends the wait that PHASE stands in (42_rx_path.md rules R195, R198, R200, R204). -/
inductive EventEffect (s : State) : State → Prop where
  | opened : s.phase = .opening none → EventEffect s { openTransport s with phase := .opening (some .opened) }
  | openFailed : s.phase = .opening none → EventEffect s { s with phase := .opening (some .failed) }
  | sent {packet : Bytes} {pt : TxPoint} (answer : TxAnswer) (txLog : List Bytes) (peerGot : Bytes) :
      s.phase = .sending packet pt none →
      EventEffect s { s with phase := .sending packet pt (some answer), txLog := txLog, peerGot := peerGot }
  | chunk {pt : ReadPoint} {t0 w : Int} {size : Nat} : s.phase = .refilling pt t0 w none → chunkEnabled s t0 w size = true →
      EventEffect s { deliverChunk size s with phase := .refilling pt t0 w (some .data) }
  | noData {pt : ReadPoint} {t0 w : Int} {answer : RxAnswer} : s.phase = .refilling pt t0 w none → answer ≠ .data →
      EventEffect s { s with phase := .refilling pt t0 w (some answer) }

theorem eventEffect_of_takeEvent {e : Event} {s t : State} (h : takeEvent e s = .next t) : EventEffect s t := by
  unfold takeEvent at h
  split at h
  next hp => cases h; exact .opened hp
  next hp => cases h; exact .openFailed hp
  next hp => cases h; exact .sent _ _ _ hp
  next hp => split at h <;> cases h; exact .sent _ s.txLog _ hp
  next hp => split at h <;> cases h; exact .chunk hp ‹_›
  next hp => split at h <;> cases h; exact .noData hp nofun
  next hp => cases h; exact .noData hp nofun
  next hp => split at h <;> cases h; exact .noData hp nofun
  next => cases h

/-! ## A step takes one turn (log entry 1) -/

/-- What a turn of one agent can do. -/
inductive TurnEffect (s : State) : Turn → State → Prop where
  | block {t : State} : BlockEffect s t → TurnEffect s .block t
  | read {addr : Word} {width : Width} {t : State} : ReadEffect s t → TurnEffect s (.host (.read addr width)) t
  | write {addr : Word} {width : Width} {v : Word} {t : State} : WriteEffect s t →
      TurnEffect s (.host (.write addr width v)) t
  | tick (n : Nat) : TurnEffect s (.tick n) (tick n s)
  | peerSend (bytes : Bytes) : s.transportOpen = true →
      TurnEffect s (.peerSend bytes) { s with rxStream := s.rxStream ++ bytes }
  | peerClose : s.transportOpen = true → TurnEffect s .peerClose { s with peerClosed := true }
  | event {e : Event} {t : State} : EventEffect s t → TurnEffect s (.event e) t

theorem turnEffect_of_takeTurn {a : Turn} {s t : State} (h : takeTurn a s = .next t) : TurnEffect s a t := by
  match a with
  | .block => exact .block (blockEffect_of_blockStep h)
  | .host (.read ..) => exact .read (readEffect_of_hostRead h)
  | .host (.write ..) => exact .write (writeEffect_of_hostWrite h)
  | .tick n => cases h; exact .tick n
  | .peerSend bytes =>
    simp only [takeTurn, Machine.peerSend] at h
    split at h <;> cases h
    exact .peerSend bytes ‹_›
  | .peerClose =>
    simp only [takeTurn, Machine.peerClose] at h
    split at h <;> cases h
    exact .peerClose ‹_›
  | .event e => exact .event (eventEffect_of_takeEvent h)

/-- A step is the first turn of the agenda, or a block turn when there is none. -/
theorem turnEffect_of_step {s t : State} (h : step s = .next t) :
    (s.agenda = [] ∧ TurnEffect s .block t) ∨
      ∃ a rest, s.agenda = a :: rest ∧ TurnEffect { s with agenda := rest } a t := by
  match ha : s.agenda with
  | [] =>
    simp only [step, nextTurn, ha] at h
    exact .inl ⟨rfl, .block (blockEffect_of_blockStep h)⟩
  | a :: rest =>
    simp only [step, nextTurn, ha] at h
    exact .inr ⟨a, rest, rfl, turnEffect_of_takeTurn h⟩

end Sys2Proof.Machine
end

section
/-! SUPPORT. Every turn keeps the invariant, agent by agent, and with them every step. -/
namespace Sys2Proof.Machine
open Sys2Proof.Safety

theorem acc_nil_of_undecodable {s : State} (h : PhaseOk s) (hd : ∀ i, decodeWord s.curCmd ≠ .ok i) : s.acc = [] := by
  match hp : s.phase with
  | .idle | .dispatch | .start => simp only [PhaseOk, hp] at h; exact h.2
  | .opening _ => simp only [PhaseOk, hp] at h; exact absurd h.1 (hd _)
  | .sending _ .command _ | .sending _ (.plus _) _ | .refilling .ack _ _ _ => simp only [PhaseOk, hp] at h; exact h.2.1
  | .refilling (.scan _) _ _ _ =>
    obtain ⟨-, -, -, -, -, ⟨v, hv⟩ | hv⟩ := (phaseOk_refilling_iff hp).mp h
    exacts [absurd hv (hd _), absurd hv (hd _)]

theorem stateInv_blockEffect {s t : State} (h : StateInv s) (e : BlockEffect s t) : StateInv t := by
  cases e with
  | idle => exact h
  | dispatched hp =>
    have hw := h.phase
    simp only [PhaseOk, hp] at hw
    exact RunInv.stateInv { runInv_of_stateInv h (by simp [hp]) with } h.tArm hw
  | unknown _ hd => exact stateInv_fail (coreInv_of_stateInv h) (acc_nil_of_undecodable h.phase hd) _ _
  | command hi hdis hd he => exact keepsInv_exec h hi hdis hd _ he

theorem stateInv_readEffect {s t : State} (h : StateInv s) (e : ReadEffect s t) : StateInv t := by
  obtain ⟨data, draws, settled, rfl, hs⟩ := e
  exact { h with settled := fun hk => (hs hk).elim h.settled id, phase := h.phase }

/-! ## Host writes -/

theorem coreInv_abandonWait {s : State} (h : CoreInv s) : CoreInv (abandonWait s) := by
  unfold abandonWait
  split
  exacts [{ h with }, h]

theorem stateInv_abort {s : State} (h : StateInv s) : StateInv (abort s) := by
  have hc := coreInv_abandonWait (coreInv_of_stateInv h)
  unfold abort
  dsimp only
  split
  · exact stateInv_fail (s := { closeTransport (abandonWait s) with link := false, rxBuf := [], acc := [] })
      { hc.unlink (.inr rfl) with } rfl _ _
  · exact stateInv_fail (s := { abandonWait s with link := false, rxBuf := [], acc := [] })
      { hc.unlink (.inl rfl) with } rfl _ _

/-- What a write to ARG stores reads as 0 in [31:16] (10_state.md rule R31). -/
theorem argStored_high (v : Word) : (argStored v).extractLsb' 16 16 = 0 :=
  BitVec.extractLsb'_append_eq_left

theorem stateInv_writeEffect {s t : State} (h : StateInv s) (e : WriteEffect s t) : StateInv t := by
  cases e with
  | issue v hp =>
    have hw := h.phase
    simp only [PhaseOk, hp] at hw
    have hr : RunInv (issue v s) :=
      ⟨{ coreInv_of_stateInv h with }, rfl, rfl, rfl, rfl, rfl, rfl⟩
    exact hr.stateInv h.tArm hw
  | arg v => exact { h with arg := argStored_high v, phase := h.phase }
  | inLen v => exact { h with phase := h.phase }
  | bytes a bs _ hw =>
    exact { h with
      memWf := Memory.wf_storeAll _ _ _ h.memWf
      memInWindows := fun c hc => (Memory.mem_storeAll _ _ _ _ hc).elim (fun hk => .inl (inWindow_of_mem hw hk))
        (h.memInWindows c)
      phase := h.phase }
  | abort => exact stateInv_abort h

/-! ## The environment -/

theorem waitOk_tick {s : State} {t0 w : Int} (h : WaitOk s t0 w) (n : Nat) : WaitOk (tick n s) t0 w := by
  obtain ⟨hr, hw, ha, hn⟩ := h
  exact ⟨hr, hw, ha, hn.trans (by simp)⟩

theorem phaseOk_tick {s : State} (h : PhaseOk s) (n : Nat) : PhaseOk (tick n s) := by
  match hp : s.phase with
  | .refilling .. =>
    obtain ⟨harm, hl, hwait, hrest⟩ := (phaseOk_refilling_iff hp).mp h
    exact (phaseOk_refilling_iff (s := tick n s) hp).mpr ⟨harm, hl, waitOk_tick hwait n, hrest⟩
  | .idle | .dispatch | .start | .opening _ | .sending _ .command _ | .sending _ (.plus _) _ =>
    simp only [PhaseOk, hp, tick_phase] at h ⊢
    exact h

/-- An answer that is no data leaves RXBUF empty, as the wait found it. -/
theorem answerOk_noData {s : State} (h : AnswerOk s none) {a : RxAnswer} (ha : a ≠ .data) :
    AnswerOk s (some a) := by
  simpa [AnswerOk, ha] using h

theorem stateInv_eventEffect {s t : State} (h : StateInv s) (e : EventEffect s t) : StateInv t := by
  have hw := h.phase
  cases e with
  | opened hp =>
    simp only [PhaseOk, hp] at hw
    obtain ⟨hcmd, harm, hacc, hl, -⟩ := hw
    exact RunInv.stateInv
      { runInv_of_stateInv h (by simp [hp]) with linkOpen := fun _ => rfl, closed := nofun } h.tArm
      ⟨hcmd, harm, hacc, hl, fun _ => rfl⟩
  | openFailed hp =>
    simp only [PhaseOk, hp] at hw
    obtain ⟨hcmd, harm, hacc, hl, -⟩ := hw
    exact RunInv.stateInv { runInv_of_stateInv h (by simp [hp]) with } h.tArm ⟨hcmd, harm, hacc, hl, nofun⟩
  | @sent packet pt _ _ _ hp =>
    refine RunInv.stateInv { runInv_of_stateInv h (by simp [hp]) with } h.tArm ?_
    cases pt <;> simp only [PhaseOk, hp] at hw <;> exact hw
  | @chunk pt t0 w size hp hc =>
    obtain ⟨harm, hl, hwait, hans, hreads⟩ := (phaseOk_refilling_iff hp).mp hw
    have hb : s.rxBuf = [] := by simpa [AnswerOk] using hans
    obtain ⟨hpos, hmax, hlen⟩ : 1 ≤ size ∧ size ≤ s.params.rxChunkMax ∧ size ≤ s.rxStream.length := by
      simp only [chunkEnabled, Bool.and_eq_true, decide_eq_true_eq] at hc
      omega
    have hsize : (deliverChunk size s).rxBuf.length = size := by simp [hb, hlen]
    refine RunInv.stateInv
      { runInv_of_stateInv h (by simp [hp]) with
        rxBuf := hsize.trans_le hmax
        rxBufUnlinked := fun hk => absurd hl (by simpa using hk)
        closed := fun hk => absurd (h.linkOpen hl) (by simpa using hk) } h.tArm
      ((phaseOk_refilling_iff rfl).mpr ⟨harm, hl, hwait, ?_, hreads⟩)
    exact iff_of_true rfl (List.ne_nil_of_length_pos (hpos.trans_eq hsize.symm))
  | @noData pt t0 w a hp ha =>
    obtain ⟨harm, hl, hwait, hans, hreads⟩ := (phaseOk_refilling_iff hp).mp hw
    exact RunInv.stateInv { runInv_of_stateInv h (by simp [hp]) with } h.tArm
      ((phaseOk_refilling_iff rfl).mpr ⟨harm, hl, hwait, answerOk_noData hans ha, hreads⟩)

theorem stateInv_turnEffect {s t : State} {a : Turn} (h : StateInv s) (e : TurnEffect s a t) : StateInv t := by
  cases e with
  | block e => exact stateInv_blockEffect h e
  | read e => exact stateInv_readEffect h e
  | write e => exact stateInv_writeEffect h e
  | tick n => exact { h with tArm := fun ha => (h.tArm ha).trans (by simp), phase := phaseOk_tick h.phase n }
  | peerSend bytes ho => exact { h with closed := fun hk => absurd ho (by simpa using hk), phase := h.phase }
  | peerClose ho => exact { h with closed := fun hk => absurd ho (by simpa using hk), phase := h.phase }
  | event e => exact stateInv_eventEffect h e

/-- The agenda stands in no clause of the invariant. -/
theorem stateInv_agenda {s : State} (h : StateInv s) (rest : List Turn) : StateInv { s with agenda := rest } :=
  { h with phase := h.phase }

/-- Settles O60: the step's turn is one of the five agents', and each keeps the invariant. -/
theorem stepKeepsInvariant : Obligations.StepKeepsInvariant := by
  intro s t h hs
  rcases turnEffect_of_step hs with ⟨-, e⟩ | ⟨a, rest, -, e⟩
  · exact stateInv_turnEffect h e
  · exact stateInv_turnEffect (stateInv_agenda h rest) e

end Sys2Proof.Machine
end

section
/-! SUPPORT. The bits of STATUS. -/
namespace Sys2Proof.Machine

/-- The fields of STATUS bit by bit (10_state.md rule R30). -/
theorem statusWord_getLsbD (s : State) (k : Nat) :
    s.statusWord.getLsbD k =
      if k = 0 then s.busy else if k = 1 then s.done else if k = 2 then s.err else if k = 3 then s.link
      else if k = 4 then s.ackMode else if k < 8 then false else s.errCode.getLsbD (k - 8) := by
  unfold State.statusWord
  iterate 7 rw [BitVec.getLsbD_append]
  match k with
  | 0 | 1 | 2 | 3 | 4 => simp
  | k + 5 =>
    have hk : k + 5 < 8 ↔ k < 3 := by omega
    by_cases h : k - 3 < 8
    · simp [hk, h]
    · simp [hk, h, BitVec.getLsbD_of_ge s.errCode (k - 3) (by omega)]

theorem statusWord_reserved_low (s : State) : s.statusWord.extractLsb' 5 3 = 0 := by
  ext i hi
  rw [BitVec.getElem_extractLsb', statusWord_getLsbD]
  iterate 5 rw [if_neg (by omega)]
  rw [if_pos (by omega)]
  simp

theorem statusWord_errCode (s : State) : s.statusWord.extractLsb' 8 8 = s.errCode := by
  ext i hi
  rw [BitVec.getElem_extractLsb', statusWord_getLsbD]
  repeat rw [if_neg (by omega)]
  rw [Nat.add_sub_cancel_left, BitVec.getLsbD_eq_getElem hi]

theorem statusWord_reserved_high (s : State) : s.statusWord.extractLsb' 16 16 = 0 := by
  ext i hi
  rw [BitVec.getElem_extractLsb', statusWord_getLsbD]
  repeat rw [if_neg (by omega)]
  rw [BitVec.getLsbD_of_ge _ _ (by omega)]
  simp

/-- Settles O9: the read answers with STATUS, whose bits are the fields. -/
theorem statusReadShowsTheFields : Obligations.StatusReadShowsTheFields := by
  intro s
  have bit := statusWord_getLsbD s
  refine ⟨readStatus s, s.statusWord, rfl, rfl, bit 0, bit 1, bit 2, bit 3, bit 4, statusWord_reserved_low s,
    statusWord_errCode s, statusWord_reserved_high s, busy_iff s, ?_, rfl⟩
  rw [bit 1]
  simp [readStatus]

end Sys2Proof.Machine
end

section
/-! SUPPORT. What a command's own step leaves alone: for each command the elements it alone may write, and the frame that the
shared procedures keep. -/
namespace Sys2Proof.Machine
open Sys2Proof.Safety

/-! ## Frames with exceptions -/

/-- Which elements of the link side a command may write (10_state.md rules R22 to R26, R36). -/
structure Writes where
  link : Bool := false
  ackMode : Bool := false
  rxBuf : Bool := false
  acc : Bool := false
  tArm : Bool := false
  transport : Bool := false

/-- SEND_PACKET and CHECK_ACK: an ACK wait arms the deadline and reads RXBUF (44_packet_exchange.md rule R241). -/
def ackWrites : Writes := { rxBuf := true, tArm := true }

/-- RECV_PACKET and RECV_AND_DECODE: a frame scan gathers in ACC as well (44_packet_exchange.md rule R246). -/
def receiveWrites : Writes := { rxBuf := true, acc := true, tArm := true }

/-- The elements that each command may write. -/
def writesOf : Instr → Writes
  | .connect => { link := true, ackMode := true, rxBuf := true }
  | .disconnect => { link := true, rxBuf := true, transport := true }
  | .setAckMode _ => { ackMode := true }
  | .sendPacket _ _ | .checkAck => ackWrites
  | .recvPacket _ | .recvAndDecode => receiveWrites
  | .encodePayload | .decodePayload | .computeChecksum | .createPacket _ | .splitPacket | .validatePacket
  | .sendAck | .sendNack | .sendInterrupt => {}

/-- What is fixed is as before, and so is every element of the link side that w does not name. -/
structure Leaves (w : Writes) (s t : State) : Prop where
  fixed : SameFixed s t
  link : w.link = false → t.link = s.link
  ackMode : w.ackMode = false → t.ackMode = s.ackMode
  rxBuf : w.rxBuf = false → t.rxBuf = s.rxBuf
  acc : w.acc = false → t.acc = s.acc
  tArm : w.tArm = false → t.tArm = s.tArm
  transport : w.transport = false → SameTransport s t

/-- Leaves, for a state inside a command: no completion has happened. -/
structure LeavesInside (w : Writes) (s t : State) : Prop extends Leaves w s t where
  outputs : SameOutputs s t

/-- Leaves, for a command's step: no completion has happened unless the command has ended. -/
structure StepLeaves (w : Writes) (s t : State) : Prop extends Leaves w s t where
  outputs : t.phase ≠ .idle → SameOutputs s t

theorem Leaves.trans {w : Writes} {s t u : State} (h : Leaves w s t) (k : Leaves w t u) : Leaves w s u where
  fixed := h.fixed.trans k.fixed
  link hw := (k.link hw).trans (h.link hw)
  ackMode hw := (k.ackMode hw).trans (h.ackMode hw)
  rxBuf hw := (k.rxBuf hw).trans (h.rxBuf hw)
  acc hw := (k.acc hw).trans (h.acc hw)
  tArm hw := (k.tArm hw).trans (h.tArm hw)
  transport hw := (h.transport hw).trans (k.transport hw)

theorem sameOutputs_trans {s t u : State} (h : SameOutputs s t) (k : SameOutputs t u) : SameOutputs s u :=
  ⟨k.1.trans h.1, k.2.trans h.2, k.3.trans h.3, k.4.trans h.4, k.5.trans h.5, fun a => (k.6 a).trans (h.6 a)⟩

/-- A command's step that first changes what it may, and then goes on. -/
theorem LeavesInside.stepLeaves {w : Writes} {s t u : State} (h : LeavesInside w s t) (k : StepLeaves w t u) :
    StepLeaves w s u :=
  { h.toLeaves.trans k.toLeaves with outputs := fun hp => sameOutputs_trans h.outputs (k.outputs hp) }

section
variable {w : Writes} {s : State}

theorem leaves_of_same {t : State} (hf : SameFixed s t) (hl : SameLinkSide s t) (ht : SameTransport s t) : Leaves w s t :=
  ⟨hf, fun _ => hl.link, fun _ => hl.ackMode, fun _ => hl.rxBuf, fun _ => hl.acc, fun _ => hl.tArm, fun _ => ht⟩

theorem leavesInside_refl : LeavesInside w s s :=
  { leaves_of_same (sameFixed_refl s) (sameLinkSide_refl s) (sameTransport_refl s) with outputs := sameOutputs_refl s }

/-! ## The shared operations -/

/-- A command's step that only moves PHASE, or does nothing. -/
theorem stepLeaves_phase (p : Phase) : StepLeaves w s { s with phase := p } :=
  ⟨leaves_of_same { sameFixed_refl s with } { sameLinkSide_refl s with } { sameTransport_refl s with },
    fun _ => { sameOutputs_refl s with }⟩

theorem stepLeaves_refl : StepLeaves w s s := stepLeaves_phase s.phase

theorem stepLeaves_fail (e : Err) (r : Word) : StepLeaves w s (fail e r s) :=
  { leaves_of_same (sameFixed_fail e r s) (sameLinkSide_fail e r s) (sameTransport_fail e r s) with
    outputs := fun hp => absurd rfl hp }

theorem stepLeaves_complete (out : Bytes) (r : Word) : StepLeaves w s (complete out r s) :=
  { leaves_of_same (sameFixed_complete out r s) (sameLinkSide_complete out r s) (sameTransport_complete out r s) with
    outputs := fun hp => absurd (by rcases complete_cases out r s with ⟨-, e⟩ | ⟨-, e⟩ <;> rw [e] <;> rfl) hp }

theorem stepLeaves_completeWith (r : Except Err Bytes) : StepLeaves w s (completeWith r s) := by
  cases r with
  | error e => exact stepLeaves_fail e 0
  | ok out => exact stepLeaves_complete out 0

theorem stepLeaves_requireLink {k : State → State} (hk : StepLeaves w s (k s)) : StepLeaves w s (requireLink k s) := by
  rcases requireLink_cases k s with ⟨-, e⟩ | ⟨-, e⟩ <;> rw [e]
  exacts [hk, stepLeaves_fail _ _]

theorem stepLeaves_requireInLen {k : State → State} (hk : StepLeaves w s (k s)) : StepLeaves w s (requireInLen k s) := by
  rcases requireInLen_cases k s with ⟨-, e⟩ | ⟨-, e⟩ <;> rw [e]
  exacts [hk, stepLeaves_fail _ _]

theorem stepLeaves_afterTx {k : State → State} (answer : Option TxAnswer) (hk : StepLeaves w s (k s)) :
    StepLeaves w s (afterTx k answer s) := by
  rcases afterTx_cases k answer s with ⟨-, e⟩ | ⟨-, e⟩ | ⟨-, e⟩ <;> rw [e]
  exacts [stepLeaves_refl, hk, stepLeaves_fail _ _]

theorem stepLeaves_afterRefill {k : State → State} {pt : ReadPoint} (answer : Option RxAnswer)
    (hfail : ∀ e, StepLeaves w s (readFail pt e s)) (hk : StepLeaves w s (k s)) :
    StepLeaves w s (afterRefill k pt answer s) := by
  rcases afterRefill_cases k pt answer s with ⟨e, -⟩ | ⟨-, e⟩ | ⟨c, e, -⟩ <;> rw [e]
  exacts [stepLeaves_refl, hk, hfail c]

theorem stepLeaves_refill {pt : ReadPoint} (hfail : ∀ e, StepLeaves w s (readFail pt e s)) :
    StepLeaves w s (refill pt s) := by
  rcases refill_cases pt s with ⟨-, e⟩ | ⟨-, e⟩ <;> rw [e]
  exacts [hfail _, stepLeaves_phase _]

end

/-! ## AckWait -/

section
variable {s : State}

theorem leavesInside_rxBuf (rest : Bytes) : LeavesInside ackWrites s { s with rxBuf := rest } :=
  { leavesInside_refl (w := ackWrites) (s := s) with
    fixed := { sameFixed_refl s with }, rxBuf := nofun, transport := fun _ => { sameTransport_refl s with },
    outputs := { sameOutputs_refl s with } }

theorem stepLeaves_ackByte : StepLeaves ackWrites s (ackByte s) := by
  unfold ackByte
  split
  · exact stepLeaves_refill fun e => stepLeaves_fail e 0
  split
  · exact (leavesInside_rxBuf _).stepLeaves (stepLeaves_complete _ _)
  split
  · exact (leavesInside_rxBuf _).stepLeaves (stepLeaves_fail _ _)
  · exact (leavesInside_rxBuf _).stepLeaves (stepLeaves_fail _ _)

theorem stepLeaves_ackWait : StepLeaves ackWrites s (ackWait s) :=
  LeavesInside.stepLeaves (t := arm s)
    { leavesInside_refl (w := ackWrites) (s := s) with
      fixed := { sameFixed_refl s with }, tArm := nofun, transport := fun _ => { sameTransport_refl s with },
      outputs := { sameOutputs_refl s with } }
    stepLeaves_ackByte

/-! ## RecvFrame -/

/-- The window, RXBUF, ACC and the draws are the receive's own. -/
theorem leavesInside_receive (rxBuf acc : Bytes) (tArm : Int) (armed : Bool) (draws : Nat) :
    LeavesInside receiveWrites s { s with rxBuf := rxBuf, acc := acc, tArm := tArm, armed := armed, draws := draws } :=
  { leavesInside_refl (w := receiveWrites) (s := s) with
    fixed := { sameFixed_refl s with }, rxBuf := nofun, acc := nofun, tArm := nofun,
    transport := fun _ => { sameTransport_refl s with }, outputs := { sameOutputs_refl s with } }

theorem stepLeaves_scanFail (e : Err) (r : Word) : StepLeaves receiveWrites s (scanFail e r s) :=
  (leavesInside_receive _ [] s.tArm s.armed _).stepLeaves (stepLeaves_fail e r)

theorem stepLeaves_scanFrom {k : Bytes → State → State} (pt : ScanPoint)
    (hk : ∀ p u, StepLeaves receiveWrites u (k p u)) : StepLeaves receiveWrites s (scanFrom k pt s) := by
  have hread (rxBuf acc : Bytes) : LeavesInside receiveWrites s { s with rxBuf := rxBuf, acc := acc } :=
    leavesInside_receive rxBuf acc s.tArm s.armed s.draws
  unfold scanFrom
  split
  · exact (hread _ _).stepLeaves (hk _ _)
  · exact (hread _ _).stepLeaves (stepLeaves_refill fun e => stepLeaves_scanFail e 0)
  · exact stepLeaves_scanFail _ _
  · exact stepLeaves_scanFail _ _

theorem stepLeaves_recvFrame {k : Bytes → State → State} (hk : ∀ p u, StepLeaves receiveWrites u (k p u)) :
    StepLeaves receiveWrites s (recvFrame k s) :=
  (leavesInside_receive s.rxBuf [] s.now true s.draws).stepLeaves (stepLeaves_scanFrom .sop hk)

theorem stepLeaves_validateAndAck {k : Bytes → State → State} (p : Bytes) (hk : StepLeaves receiveWrites s (k p s)) :
    StepLeaves receiveWrites s (validateAndAck k p s) := by
  unfold validateAndAck
  split
  · exact stepLeaves_fail _ _
  split
  exacts [stepLeaves_phase _, hk]

theorem stepLeaves_deliverDecoded (p : Bytes) : StepLeaves receiveWrites s (deliverDecoded p s) := by
  unfold deliverDecoded
  split
  exacts [stepLeaves_fail _ _, stepLeaves_complete _ _]

theorem stepLeaves_recvPacketFrame (v : Bool) (p : Bytes) : StepLeaves receiveWrites s (recvPacketFrame v p s) := by
  cases v with
  | false => exact stepLeaves_complete p 0
  | true => exact stepLeaves_validateAndAck p (stepLeaves_complete p 0)

/-! ## The commands -/

theorem stepLeaves_sendByte (b : Byte) : StepLeaves {} s (sendByte b s) := by
  unfold sendByte
  split
  exacts [stepLeaves_afterTx _ (stepLeaves_complete _ _), stepLeaves_requireLink (stepLeaves_phase _)]

theorem stepLeaves_sendPacketStart (ck : Bool) : StepLeaves ackWrites s (sendPacketStart ck s) := by
  refine stepLeaves_requireInLen ?_
  split
  exacts [stepLeaves_fail _ _, stepLeaves_requireLink (stepLeaves_phase _)]

theorem stepLeaves_sendPacketSent (chk : Bool) : StepLeaves ackWrites s (sendPacketSent chk s) := by
  unfold sendPacketSent
  split
  exacts [stepLeaves_ackWait, stepLeaves_complete _ _]

/-- A command's step leaves alone all but what the command may write. -/
theorem stepLeaves_exec {i : Instr} {t : State} (h : exec i s = .next t) : StepLeaves (writesOf i) s t := by
  cases i <;> cases h
  case encodePayload | computeChecksum => exact stepLeaves_requireInLen (stepLeaves_complete _ _)
  case decodePayload | createPacket => exact stepLeaves_requireInLen (stepLeaves_completeWith _)
  case splitPacket =>
    refine stepLeaves_requireInLen ?_
    dsimp only
    split
    exacts [stepLeaves_fail _ _, stepLeaves_complete _ _]
  case validatePacket =>
    refine stepLeaves_requireInLen ?_
    split
    exacts [stepLeaves_fail _ _, stepLeaves_complete _ _]
  case connect =>
    split
    · exact stepLeaves_refl
    · exact stepLeaves_fail _ _
    · refine LeavesInside.stepLeaves ?_ (stepLeaves_complete _ _)
      exact { leavesInside_refl (w := writesOf .connect) (s := s) with
        fixed := { sameFixed_refl s with }, link := nofun, ackMode := nofun, rxBuf := nofun,
        transport := fun _ => { sameTransport_refl s with }, outputs := { sameOutputs_refl s with } }
    · split
      exacts [stepLeaves_fail _ _, stepLeaves_phase _]
  case disconnect =>
    refine LeavesInside.stepLeaves ?_ (stepLeaves_complete _ _)
    split <;> exact { leavesInside_refl (w := writesOf .disconnect) (s := s) with
      fixed := { sameFixed_refl s with }, link := nofun, rxBuf := nofun, transport := nofun,
      outputs := { sameOutputs_refl s with } }
  case setAckMode enable =>
    refine LeavesInside.stepLeaves ?_ (stepLeaves_complete _ _)
    exact { leavesInside_refl (w := writesOf (.setAckMode enable)) (s := s) with
      fixed := { sameFixed_refl s with }, ackMode := nofun, transport := fun _ => { sameTransport_refl s with },
      outputs := { sameOutputs_refl s with } }
  case sendPacket =>
    split
    exacts [stepLeaves_afterTx _ (stepLeaves_sendPacketSent _),
      stepLeaves_afterRefill _ (fun e => stepLeaves_fail e 0) stepLeaves_ackByte, stepLeaves_sendPacketStart _]
  case checkAck =>
    split
    exacts [stepLeaves_afterRefill _ (fun e => stepLeaves_fail e 0) stepLeaves_ackByte,
      stepLeaves_requireLink stepLeaves_ackWait]
  case sendAck | sendNack | sendInterrupt => exact stepLeaves_sendByte _
  case recvPacket =>
    split
    exacts [stepLeaves_afterTx _ (stepLeaves_complete _ _),
      stepLeaves_afterRefill _ (fun e => stepLeaves_scanFail e 0) (stepLeaves_scanFrom _ fun p _ =>
        stepLeaves_recvPacketFrame _ p),
      stepLeaves_requireLink (stepLeaves_recvFrame fun p _ => stepLeaves_recvPacketFrame _ p)]
  case recvAndDecode =>
    split
    exacts [stepLeaves_afterTx _ (stepLeaves_deliverDecoded _),
      stepLeaves_afterRefill _ (fun e => stepLeaves_scanFail e 0) (stepLeaves_scanFrom _ fun p _ =>
        stepLeaves_validateAndAck p (stepLeaves_deliverDecoded p)),
      stepLeaves_requireLink (stepLeaves_recvFrame fun p _ => stepLeaves_validateAndAck p (stepLeaves_deliverDecoded p))]

end

/-! ## Which commands write an element -/

section
variable {i : Instr}

theorem writesOf_link (h1 : i ≠ .connect) (h2 : i ≠ .disconnect) : (writesOf i).link = false := by
  cases i <;> simp_all [writesOf, ackWrites, receiveWrites]

theorem writesOf_ackMode (h1 : i ≠ .connect) (h2 : ∀ v, i ≠ .setAckMode v) : (writesOf i).ackMode = false := by
  cases i <;> simp_all [writesOf, ackWrites, receiveWrites]

theorem writesOf_transport (h1 : i ≠ .disconnect) : (writesOf i).transport = false := by
  cases i <;> simp_all [writesOf, ackWrites, receiveWrites]

theorem writesOf_acc (h1 : ∀ v, i ≠ .recvPacket v) (h2 : i ≠ .recvAndDecode) : (writesOf i).acc = false := by
  cases i <;> simp_all [writesOf, ackWrites]

theorem writesOf_tArm (h1 : ∀ v, i ≠ .recvPacket v) (h2 : i ≠ .recvAndDecode) (h3 : i ≠ .checkAck)
    (h4 : ∀ ck chk, i ≠ .sendPacket ck chk) : (writesOf i).tArm = false := by
  cases i <;> simp_all [writesOf]

theorem writesOf_rxBuf (h1 : ∀ v, i ≠ .recvPacket v) (h2 : i ≠ .recvAndDecode) (h3 : i ≠ .checkAck)
    (h4 : ∀ ck chk, i ≠ .sendPacket ck chk) (h5 : i ≠ .connect) (h6 : i ≠ .disconnect) : (writesOf i).rxBuf = false := by
  cases i <;> simp_all [writesOf]

end

/-- Settles O51: a command's step leaves alone all but what writesOf names for the command. -/
theorem commandFrames : Obligations.CommandFrames := by
  intro i s t h
  have k := stepLeaves_exec h
  exact ⟨k.fixed, k.outputs, fun h1 h2 => k.link (writesOf_link h1 h2), fun h1 h2 => k.ackMode (writesOf_ackMode h1 h2),
    fun h1 => k.transport (writesOf_transport h1), fun h1 h2 => k.acc (writesOf_acc h1 h2),
    fun h1 h2 h3 h4 => k.tArm (writesOf_tArm h1 h2 h3 h4),
    fun h1 h2 h3 h4 h5 h6 => k.rxBuf (writesOf_rxBuf h1 h2 h3 h4 h5 h6)⟩

end Sys2Proof.Machine
end

section
/-! SUPPORT. What each turn leaves of the configuration and the operands, and which turns write LINK and ACK_MODE. -/
namespace Sys2Proof.Machine
open Sys2Proof.Safety

/-! ## Configuration and operands -/

/-- The parameters and the configuration are as before (00_scope.md rule R4; 10_state.md rule R28). -/
structure SameConfig (s t : State) : Prop where
  params : t.params = s.params
  cfgHost : t.cfgHost = s.cfgHost
  cfgPort : t.cfgPort = s.cfgPort
  cfgTimeout : t.cfgTimeout = s.cfgTimeout

/-- ARG, IN_LEN and every byte of IN are as before (10_state.md rules R31, R33, R34). -/
structure SameOperands (s t : State) : Prop where
  arg : t.arg = s.arg
  inLen : t.inLen = s.inLen
  bytes : ∀ a, a < outBase → t.byteAt a = s.byteAt a

theorem sameConfig_of_sameFixed {s t : State} (h : SameFixed s t) : SameConfig s t := { h with }

theorem sameOperands_of_sameFixed {s t : State} (h : SameFixed s t) : SameOperands s t := { h with bytes := h.inBytes }

theorem sameFixed_blockEffect {s t : State} (e : BlockEffect s t) : SameFixed s t := by
  cases e with
  | idle => exact sameFixed_refl s
  | dispatched => exact { sameFixed_refl s with }
  | unknown => exact sameFixed_fail ..
  | command _ _ _ he => exact (stepLeaves_exec he).fixed

theorem sameFixed_abandonWait (s : State) : SameFixed s (abandonWait s) := by
  unfold abandonWait
  split <;> exact { sameFixed_refl s with }

theorem sameFixed_abort (s : State) : SameFixed s (abort s) := by
  refine (sameFixed_abandonWait s).trans ?_
  unfold abort
  dsimp only
  refine SameFixed.trans ?_ (sameFixed_fail _ _ _)
  split <;> exact { sameFixed_refl _ with }

theorem sameFixed_eventEffect {s t : State} (e : EventEffect s t) : SameFixed s t := by
  cases e <;> exact { sameFixed_refl s with }

/-- A turn keeps the operands, unless it is a host write that finds no command in progress. -/
theorem turnEffect_keeps {s t : State} {a : Turn} (e : TurnEffect s a t) :
    SameConfig s t ∧ (SameOperands s t ∨ (s.phase = .idle ∧ ∃ addr width v, a = .host (.write addr width v))) := by
  have of_fixed (h : SameFixed s t) : SameConfig s t ∧
      (SameOperands s t ∨ (s.phase = .idle ∧ ∃ addr width v, a = .host (.write addr width v))) :=
    ⟨sameConfig_of_sameFixed h, .inl (sameOperands_of_sameFixed h)⟩
  cases e with
  | block e => exact of_fixed (sameFixed_blockEffect e)
  | read e =>
    obtain ⟨_, _, _, rfl, -⟩ := e
    exact ⟨⟨rfl, rfl, rfl, rfl⟩, .inl ⟨rfl, rfl, fun _ _ => rfl⟩⟩
  | write e =>
    cases e with
    | abort => exact of_fixed (sameFixed_abort s)
    | issue _ hp | arg _ hp | inLen _ hp | bytes _ _ hp _ => exact ⟨⟨rfl, rfl, rfl, rfl⟩, .inr ⟨hp, _, _, _, rfl⟩⟩
  | tick => exact ⟨⟨rfl, rfl, rfl, rfl⟩, .inl ⟨rfl, rfl, fun _ _ => rfl⟩⟩
  | peerSend | peerClose => exact of_fixed { sameFixed_refl s with }
  | event e => exact of_fixed (sameFixed_eventEffect e)

/-- A step keeps the operands, unless it is a host write that finds no command in progress. -/
theorem step_keeps {s t : State} (h : step s = .next t) :
    SameConfig s t ∧
      (SameOperands s t ∨ (s.phase = .idle ∧ ∃ addr width v rest, s.agenda = .host (.write addr width v) :: rest)) := by
  rcases turnEffect_of_step h with ⟨-, e⟩ | ⟨a, rest, ha, e⟩
  · obtain ⟨hc, ho | ⟨-, _, _, _, hblock⟩⟩ := turnEffect_keeps e
    exacts [⟨hc, .inl ho⟩, nomatch hblock]
  · obtain ⟨hc, ho | ⟨hp, addr, width, v, rfl⟩⟩ := turnEffect_keeps e
    exacts [⟨{ hc with }, .inl { ho with }⟩, ⟨{ hc with }, .inr ⟨hp, addr, width, v, rest, ha⟩⟩]

/-- Settles O54: only the operands that a host write stores change, and only while no command is in progress. -/
theorem configurationAndOperandsAreStable : Obligations.ConfigurationAndOperandsAreStable := by
  intro s t h
  obtain ⟨hc, ho⟩ := step_keeps h
  refine ⟨hc.params, hc.cfgHost, hc.cfgPort, hc.cfgTimeout, fun hp => ?_, fun a ha hne => ?_⟩
  · obtain ho | ⟨hi, -⟩ := ho
    exacts [⟨ho.arg, ho.inLen, ho.bytes⟩, absurd hi hp]
  · obtain ho | hw := ho
    exacts [absurd (ho.bytes a ha) hne, hw]

/-! ## The word of a command -/

/-- A word that decodes to a command is the command's word (30_encoding.md rules R80, R84). -/
theorem encode_of_decodeWord {w : Word} {i : Instr} (h : decodeWord w = .ok i) : encode i = w := by
  unfold decodeWord at h
  split at h
  next hr =>
    have fields (ho : i.opcode = w.opc) (h0 : i.flag0 = w.f0) (h1 : i.flag1 = w.f1) : encode i = w :=
      word_ext ((encode_opc i).trans ho) ((encode_f0 i).trans h0) ((encode_f1 i).trans h1)
        ((encode_reserved i).trans hr.symm)
    unfold decodeOpcode at h
    split at h
    case h_4 ho | h_9 ho | h_15 ho =>
      obtain ⟨rfl, h1⟩ := onlyF0_ok h
      exact fields ho.symm rfl h1.symm
    case h_10 ho =>
      cases h
      exact fields ho.symm rfl rfl
    case h_17 => cases h
    all_goals
      obtain ⟨rfl, h0, h1⟩ := noFlags_ok h
      exact fields (Eq.symm ‹_›) h0.symm h1.symm
  next => cases h

/-! ## LINK and ACK_MODE -/

/-- CONNECT writes LINK and ACK_MODE together, as it completes (43_link_control.md rule R220). -/
theorem exec_connect_writes {s t : State} (h : exec .connect s = .next t) :
    (t.link = s.link ∧ t.ackMode = s.ackMode) ∨
      (t.link = true ∧ t.ackMode = true ∧ t.done = true ∧ t.err = false) := by
  cases h
  split
  · exact .inl ⟨rfl, rfl⟩
  · exact .inl ⟨rfl, rfl⟩
  · rw [complete_nil]
    exact .inr ⟨rfl, rfl, rfl, rfl⟩
  · split <;> exact .inl ⟨rfl, rfl⟩

theorem exec_disconnect_writes {s t : State} (h : exec .disconnect s = .next t) :
    t.link = false ∧ t.done = true ∧ t.err = false := by
  cases h
  rw [complete_nil]
  exact ⟨rfl, rfl, rfl⟩

theorem exec_setAckMode_writes {enable : Bool} {s t : State} (h : exec (.setAckMode enable) s = .next t) :
    t.ackMode = enable := by
  cases h
  rw [complete_nil]
  rfl

/-- Who writes LINK: a CONNECT, a DISCONNECT, or an abort (10_state.md rule R22). -/
def LinkWritten (s t : State) : Prop :=
  (s.curCmd = 0x10 ∧ t.link = true ∧ t.done = true ∧ t.err = false) ∨
    (s.curCmd = 0x11 ∧ t.link = false ∧ t.done = true ∧ t.err = false) ∨ (t.link = false ∧ t.errCode = 0x54)

/-- Who writes ACK_MODE: a CONNECT that sets LINK, or a SET_ACK_MODE (10_state.md rule R23). -/
def AckModeWritten (s t : State) : Prop :=
  (s.curCmd = 0x10 ∧ t.ackMode = true ∧ t.link = true ∧ t.err = false) ∨
    (s.curCmd = 0x112 ∧ t.ackMode = true) ∨ (s.curCmd = 0x12 ∧ t.ackMode = false)

theorem exec_writes {i : Instr} {s t : State} (hd : decodeWord s.curCmd = .ok i) (h : exec i s = .next t) :
    (t.link = s.link ∨ LinkWritten s t) ∧ (t.ackMode = s.ackMode ∨ AckModeWritten s t) := by
  have hw := (encode_of_decodeWord hd).symm
  have hl := (stepLeaves_exec h).link
  have ha := (stepLeaves_exec h).ackMode
  cases i with
  | connect =>
    rcases exec_connect_writes h with ⟨hl, ha⟩ | ⟨hl, ha, hdone, herr⟩
    · exact ⟨.inl hl, .inl ha⟩
    · exact ⟨.inr (.inl ⟨hw, hl, hdone, herr⟩), .inr (.inl ⟨hw, ha, hl, herr⟩)⟩
  | disconnect => exact ⟨.inr (.inr (.inl ⟨hw, exec_disconnect_writes h⟩)), .inl (ha rfl)⟩
  | setAckMode enable =>
    refine ⟨.inl (hl rfl), .inr (.inr ?_)⟩
    cases enable
    exacts [.inr ⟨hw, exec_setAckMode_writes h⟩, .inl ⟨hw, exec_setAckMode_writes h⟩]
  | _ => exact ⟨.inl (hl rfl), .inl (ha rfl)⟩

theorem abandonWait_ackMode (s : State) : (abandonWait s).ackMode = s.ackMode := by
  unfold abandonWait
  split <;> rfl

theorem abort_ackMode (s : State) : (abort s).ackMode = s.ackMode := by
  unfold abort
  dsimp only
  split <;> exact abandonWait_ackMode s

/-- Every turn but these leaves LINK and ACK_MODE as they are. -/
theorem turnEffect_writes {s t : State} {a : Turn} (e : TurnEffect s a t) :
    (t.link = s.link ∨ LinkWritten s t) ∧ (t.ackMode = s.ackMode ∨ AckModeWritten s t) := by
  cases e with
  | block e =>
    cases e with
    | idle | dispatched | unknown => exact ⟨.inl rfl, .inl rfl⟩
    | command _ _ hd he => exact exec_writes hd he
  | read e =>
    obtain ⟨_, _, _, rfl, -⟩ := e
    exact ⟨.inl rfl, .inl rfl⟩
  | write e =>
    cases e with
    | abort => exact ⟨.inr (.inr (.inr ⟨rfl, rfl⟩)), .inl (abort_ackMode s)⟩
    | issue | arg | inLen | bytes => exact ⟨.inl rfl, .inl rfl⟩
  | tick | peerSend | peerClose => exact ⟨.inl rfl, .inl rfl⟩
  | event e => cases e <;> exact ⟨.inl rfl, .inl rfl⟩

theorem step_writes {s t : State} (h : step s = .next t) :
    (t.link = s.link ∨ LinkWritten s t) ∧ (t.ackMode = s.ackMode ∨ AckModeWritten s t) := by
  rcases turnEffect_of_step h with ⟨-, e⟩ | ⟨a, rest, -, e⟩
  · exact turnEffect_writes e
  · exact turnEffect_writes (s := { s with agenda := rest }) e

/-- Settles O52: of the three that write LINK, only CONNECT writes 1. -/
theorem linkWriters : Obligations.LinkWriters := by
  intro s t _ h
  rcases (step_writes h).1 with hl | ⟨hw, hl, hdone, herr⟩ | ⟨hw, hl, hend⟩ | ⟨hl, habort⟩
  · exact ⟨fun h0 h1 => absurd (hl.symm.trans h1) (by simp [h0]), fun h1 h0 => absurd (hl.symm.trans h0) (by simp [h1])⟩
  · exact ⟨fun _ _ => ⟨hw, hdone, herr⟩, fun _ h0 => absurd (hl.symm.trans h0) (by simp)⟩
  · exact ⟨fun _ h1 => absurd (hl.symm.trans h1) (by simp), fun _ _ => .inl ⟨hw, hend⟩⟩
  · exact ⟨fun _ h1 => absurd (hl.symm.trans h1) (by simp), fun _ _ => .inr habort⟩

/-- Settles O53: a step that changes ACK_MODE is one that writes it. -/
theorem ackModeWriters : Obligations.AckModeWriters := fun _ _ _ h hne => (step_writes h).2.resolve_left hne

end Sys2Proof.Machine
end

section
/-! SUPPORT. The address space the host sees: which offset a register stands at, the bytes of a value, and what an access of
each kind answers (20_memory.md rules R60 to R67). -/
namespace Sys2Proof.Machine
open Sys2Proof.Safety

/-! ## Little-endian bytes (20_memory.md rule R65) -/

theorem leBytes_getElem? {n k : Nat} (v : Nat) (h : k < n) : (leBytes n v)[k]? = some (BitVec.ofNat 8 (v / 256 ^ k)) := by
  induction n generalizing v k with
  | zero => omega
  | succ n ih =>
    cases k with
    | zero => simp [leBytes]
    | succ k => rw [leBytes, List.getElem?_cons_succ, ih (v / 256) (by omega), Nat.div_div_eq_div_mul, pow_succ']

theorem leNat_leBytes (n v : Nat) : leNat (leBytes n v) = v % 256 ^ n := by
  induction n generalizing v with
  | zero => simp [leBytes, leNat, Nat.mod_one]
  | succ n ih => simp [leBytes, leNat, ih, pow_succ', Nat.mod_mul]

theorem windowValue_toNat (s : State) (a : Nat) (width : Width) :
    (windowValue s a (widthBytes width)).toNat = littleEndian s a (widthBytes width) := by
  have hw : 256 ^ widthBytes width ≤ 2 ^ 32 := by cases width <;> decide
  rw [windowValue, leNat_bytesAt, BitVec.toNat_ofNat, Nat.mod_eq_of_lt ((littleEndian_lt ..).trans_le hw)]

/-- A byte after a host write of a sequence. -/
theorem byteAt_withStored (s : State) (a : Nat) (bs : Bytes) (k : Nat) :
    { s with mem := Memory.storeAll s.mem a bs }.byteAt k =
      if a ≤ k ∧ k < a + bs.length then bs.getD (k - a) 0 else s.byteAt k :=
  byteAt_storeAll (s := s) (t := { s with mem := Memory.storeAll s.mem a bs }) rfl rfl rfl k

/-- A window's value where an n-byte value has just been stored is that value, cut to n bytes. -/
theorem windowValue_storeAll (s : State) (a n v : Nat) :
    windowValue { s with mem := Memory.storeAll s.mem a (leBytes n v) } a n = BitVec.ofNat 32 (v % 256 ^ n) := by
  have hlen := leBytes_length n v
  have hbytes := bytesAt_eq { s with mem := Memory.storeAll s.mem a (leBytes n v) } (leBytes n v) a fun k hk => by
    rw [byteAt_withStored, if_pos ⟨by omega, by omega⟩, Nat.add_sub_cancel_left,
      List.getElem?_eq_getElem hk, List.getD_eq_getElem _ _ hk]
  rw [hlen] at hbytes
  rw [windowValue, hbytes, leNat_leBytes]

/-! ## The register map (20_memory.md rule R60) -/

/-- The offset of a register. -/
def Reg.offset : Reg → Nat
  | .cmd => 0x00
  | .status => 0x04
  | .arg => 0x08
  | .result => 0x0C
  | .inLen => 0x10
  | .outLen => 0x14
  | .cfgTimeout => 0x18
  | .cfgPort => 0x1C
  | .paramMaxPacketLen => 0x20
  | .paramInCap => 0x24
  | .paramOutCap => 0x28
  | .paramRxChunkMax => 0x2C
  | .paramTicksPerUnit => 0x30
  | .paramPolicy => 0x34

/-- The registers a write may store to or issue through. -/
def Reg.Writable (r : Reg) : Prop := r = .cmd ∨ r = .arg ∨ r = .inLen

theorem regAt_eq_some_iff {a : Nat} {r : Reg} : regAt a = some r ↔ a = r.offset := by
  constructor
  · unfold regAt
    split <;> rintro ⟨⟩ <;> rfl
  · rintro rfl
    cases r <;> rfl

theorem isRegister_offset (r : Reg) : IsRegister r.offset := by
  unfold IsRegister
  cases r <;> decide

theorem isRegister_iff {a : Nat} : IsRegister a ↔ ∃ r, regAt a = some r := by
  constructor
  · rintro ⟨h4, hle⟩
    obtain ⟨k, rfl⟩ := Nat.dvd_of_mod_eq_zero h4
    have hk : k < 14 := by omega
    interval_cases k <;> exact ⟨_, rfl⟩
  · rintro ⟨r, hr⟩
    exact regAt_eq_some_iff.mp hr ▸ isRegister_offset r

theorem not_isRegister_iff {a : Nat} : ¬ IsRegister a ↔ regAt a = none := by
  rw [isRegister_iff, ← Option.isSome_iff_exists, Option.not_isSome_iff_eq_none]

theorem isReadOnlyRegister_offset (r : Reg) : IsReadOnlyRegister r.offset ↔ ¬ r.Writable := by
  have := isRegister_offset r
  unfold IsReadOnlyRegister Reg.Writable
  cases r <;> simp_all [Reg.offset]

/-- A 32-bit access at a register's offset is one of that register. -/
theorem hostRead_register (r : Reg) (s : State) : hostRead (BitVec.ofNat 32 r.offset) .w32 s = readReg r s := by
  cases r <;> rfl

theorem hostWrite_register (r : Reg) (v : Word) (s : State) :
    hostWrite (BitVec.ofNat 32 r.offset) .w32 v s = writeReg r v s := by
  cases r <;> rfl

theorem inWindow_iff {base cap a n : Nat} : inWindow base cap a n = true ↔ base ≤ a ∧ a + n ≤ base + cap := by
  simp [inWindow]

theorem widthBytes_pos (width : Width) : 0 < widthBytes width := by cases width <;> decide

/-- No register stands at the IN window's addresses or above. -/
theorem regAt_of_inBase_le {a : Nat} (h : inBase ≤ a) : regAt a = none :=
  not_isRegister_iff.mp fun hr => by
    have := hr.2
    unfold inBase at h
    omega

/-- The two windows do not meet: each holds at most 2^24 bytes. -/
theorem not_inInWindow_of_inOutWindow {s : State} {x : HostAccess} (hp : s.params.wf = true) (h : InOutWindow s x) :
    ¬ InInWindow s x := by
  have hcap := (wf_facts hp).2.2.2.2.1
  have hpos := widthBytes_pos (accessWidth x)
  intro hin
  have := h.1
  have := hin.2
  omega

/-! ## Reads and writes of the windows (20_memory.md rules R61, R63) -/

theorem hostRead_inWindow {s : State} {a : Word} {width : Width} (hal : a.toNat % widthBytes width = 0)
    (h : inWindow inBase s.params.inCap a.toNat (widthBytes width) = true) :
    hostRead a width s = .next (observe (windowValue s a.toNat (widthBytes width)) s) := by
  simp [hostRead, hal, h, regAt_of_inBase_le (inWindow_iff.mp h).1]

theorem hostRead_outWindow {s : State} {a : Word} {width : Width} (hp : s.params.wf = true)
    (hal : a.toNat % widthBytes width = 0)
    (h : inWindow outBase s.params.outCap a.toNat (widthBytes width) = true) :
    hostRead a width s = .next (observeOutput (widthBytes width) (windowValue s a.toNat (widthBytes width)) s) := by
  have hin : ¬ inWindow inBase s.params.inCap a.toNat (widthBytes width) = true := fun hin =>
    not_inInWindow_of_inOutWindow (x := .read a width) hp (inWindow_iff.mp h) (inWindow_iff.mp hin)
  have hreg : regAt a.toNat = none := regAt_of_inBase_le (le_trans (by decide) (inWindow_iff.mp h).1)
  simp [hostRead, hal, h, hin, hreg]

theorem hostWrite_inWindow {s : State} {a : Word} {width : Width} (v : Word) (hal : a.toNat % widthBytes width = 0)
    (h : inWindow inBase s.params.inCap a.toNat (widthBytes width) = true) (hi : s.phase = .idle) :
    hostWrite a width v s =
      .next { s with mem := Memory.storeAll s.mem a.toNat (leBytes (widthBytes width) v.toNat) } := by
  have hb : ¬ s.busy = true := (not_busy_iff s).mpr hi
  simp [hostWrite, hal, h, hb, regAt_of_inBase_le (inWindow_iff.mp h).1]

/-- Once the host has seen DONE = 1 a read of an output shows it (20_memory.md rule R69; log entry 8). -/
theorem observeOutput_settled {s : State} (hs : s.outputsSettled = true) (hi : s.phase = .idle) (n : Nat) (v : Word) :
    observeOutput n v s = observe v s := by
  have hb : ¬ s.busy = true := (not_busy_iff s).mpr hi
  simp [observeOutput, hs, hb]

/-- The read is answered, with the number n on the bus. -/
def ReadsAs (s : State) (a : Word) (width : Width) (n : Nat) : Prop :=
  ∃ t v, hostAccess (.read a width) s = .next t ∧ t.busData = some v ∧ v.toNat = n

theorem readsAs_of_observe {s : State} {a : Word} {width : Width} {n : Nat} {v : Word}
    (h : hostRead a width s = .next (observe v s)) (hv : v.toNat = n) : ReadsAs s a width n := ⟨_, _, h, rfl, hv⟩

theorem readsAs_register {s : State} {n : Nat} {v : Word} (r : Reg) (h : readReg r s = .next (observe v s))
    (hv : v.toNat = n) : ReadsAs s (BitVec.ofNat 32 r.offset) .w32 n :=
  readsAs_of_observe ((hostRead_register r s).trans h) hv

/-- Settles O12: both windows show the little-endian number of their bytes, and the bytes just stored spell the value. -/
theorem windowWriteThenRead : Obligations.WindowWriteThenRead := by
  intro s a width hp hal
  refine ⟨fun hlo hhi => ?_, fun hlo hhi hs hi => ?_⟩
  · have hw := inWindow_iff.mpr ⟨hlo, hhi⟩
    exact ⟨readsAs_of_observe (hostRead_inWindow hal hw) (windowValue_toNat ..), fun v hi =>
      ⟨_, _, hostWrite_inWindow v hal hw hi, hostRead_inWindow hal hw, congrArg some (windowValue_storeAll ..)⟩⟩
  · have hr := hostRead_outWindow hp hal (inWindow_iff.mpr ⟨hlo, hhi⟩)
    rw [observeOutput_settled hs hi] at hr
    exact readsAs_of_observe hr (windowValue_toNat ..)

/-! ## Refused accesses (20_memory.md rule R62) -/

/-- The outcome is a refusal exactly when P holds, and else a next state. -/
inductive RefusedIff (P : Prop) : Host.Outcome State Fault Refusal → Prop where
  | refused (r : Refusal) : P → RefusedIff P (.refused r)
  | next (t : State) : ¬ P → RefusedIff P (.next t)

theorem RefusedIff.of_iff {P Q : Prop} {o : Host.Outcome State Fault Refusal} (h : RefusedIff P o) (e : Q ↔ P) :
    RefusedIff Q o := propext e ▸ h

theorem RefusedIff.exists_iff {P : Prop} {o : Host.Outcome State Fault Refusal} (h : RefusedIff P o) :
    (∃ r, o = .refused r) ↔ P := by
  cases h <;> simp_all

theorem RefusedIff.no_fault {P : Prop} {o : Host.Outcome State Fault Refusal} (h : RefusedIff P o) (f : Fault) :
    o ≠ .fault f := by
  cases h <;> nofun

theorem RefusedIff.not_of_next {P : Prop} {t : State} (h : RefusedIff P (.next t)) : ¬ P := by
  cases h
  assumption

/-- The commands a DISCONNECT word aborts are those whose word rule R222 lists. -/
theorem abortable_decodeWord_iff (w : Word) : (decodeWord w).toOption.any abortable = true ↔ AbortableWord w := by
  constructor
  · intro h
    obtain ⟨i, hd, ha⟩ : ∃ i, decodeWord w = .ok i ∧ abortable i = true := by
      cases hd : decodeWord w with
      | error e => simp [hd, Except.toOption] at h
      | ok i => exact ⟨i, rfl, by simpa [hd, Except.toOption] using h⟩
    rw [← encode_of_decodeWord hd]
    unfold AbortableWord
    cases i with
    | sendPacket ck chk => cases ck <;> cases chk <;> decide
    | recvPacket v => cases v <;> decide
    | connect | checkAck | sendAck | sendNack | sendInterrupt | recvAndDecode => decide
    | _ => cases ha
  · rintro (rfl | (rfl | rfl | rfl | rfl) | rfl | rfl | rfl | rfl | (rfl | rfl) | rfl) <;> decide

theorem refusedIff_readReg (r : Reg) (s : State) : RefusedIff (r = .cmd) (readReg r s) := by
  cases r
  case cmd => exact .refused _ rfl
  all_goals exact .next _ nofun

theorem refusedIff_writeCmd (v : Word) (s : State) :
    RefusedIff (s.phase ≠ .idle ∧ ¬ (v = 0x11 ∧ AbortableWord s.curCmd)) (writeCmd v s) := by
  unfold writeCmd
  split
  next hb => exact .next _ fun h => h.1 ((not_busy_iff s).mp (by simpa using hb))
  next hb =>
    split
    next ha =>
      rw [Bool.and_eq_true, decide_eq_true_eq, abortable_decodeWord_iff] at ha
      exact .next _ fun h => h.2 ha
    next ha =>
      rw [Bool.and_eq_true, decide_eq_true_eq, abortable_decodeWord_iff] at ha
      exact .refused _ ⟨(busy_iff s).mp (by simpa using hb), ha⟩

theorem refusedIff_writeReg (r : Reg) (v : Word) (s : State) :
    RefusedIff (¬ r.Writable ∨ s.phase ≠ .idle ∧ ¬ (r = .cmd ∧ v = 0x11 ∧ AbortableWord s.curCmd)) (writeReg r v s) := by
  cases r
  case cmd => exact (refusedIff_writeCmd v s).of_iff (by simp [Reg.Writable])
  case arg | inLen =>
    simp only [writeReg]
    split
    next hb => exact .refused _ (.inr ⟨(busy_iff s).mp hb, nofun⟩)
    next hb => exact .next _ (by simp [Reg.Writable, (not_busy_iff s).mp hb])
  all_goals exact .refused _ (.inl (by simp [Reg.Writable]))

/-- Rule R62 for a 32-bit access to a register. -/
theorem refusedAccess_register_iff {s : State} {x : HostAccess} {r : Reg} (hr : accessAddr x = r.offset)
    (hw : accessWidth x = .w32) :
    RefusedAccess s x ↔
      (isWrite x = false ∧ r = .cmd) ∨ (isWrite x = true ∧ (¬ r.Writable ∨ s.phase ≠ .idle ∧ ¬ IsAbort s x)) := by
  have hreg := isRegister_offset r
  have hin : ¬ InInWindow s x := fun h => by have := h.1; have := hreg.2; omega
  have hout : ¬ InOutWindow s x := fun h => by have := h.1; have := hreg.2; omega
  have hal : r.offset % widthBytes .w32 = 0 := hreg.1
  have hcmd : r.offset = 0 ↔ r = .cmd := by cases r <;> decide
  have hwr : (r.offset = 0 ∨ r.offset = 8 ∨ r.offset = 16) ↔ r.Writable := by
    unfold Reg.Writable
    cases r <;> decide
  simp only [RefusedAccess, hr, hw, hin, hout, hreg, hal, hcmd, isReadOnlyRegister_offset, or_false, not_true,
    ne_eq, false_and, and_false, false_or]
  rw [← hcmd, hwr]
  tauto

/-- Rule R62 for an aligned access outside the registers. -/
theorem refusedAccess_of_not_register_iff {s : State} {x : HostAccess} (hr : ¬ IsRegister (accessAddr x))
    (hal : accessAddr x % widthBytes (accessWidth x) = 0) :
    RefusedAccess s x ↔
      (¬ InInWindow s x ∧ ¬ InOutWindow s x) ∨
        (isWrite x = true ∧ (InOutWindow s x ∨ s.phase ≠ .idle ∧ InInWindow s x)) := by
  have h0 : accessAddr x ≠ 0 := fun h => hr (h ▸ isRegister_offset .cmd)
  have h8 : accessAddr x ≠ 8 := fun h => hr (h ▸ isRegister_offset .arg)
  have h16 : accessAddr x ≠ 16 := fun h => hr (h ▸ isRegister_offset .inLen)
  have hab : ¬ IsAbort s x := fun h => h0 (by rw [h.1]; rfl)
  simp only [RefusedAccess, IsReadOnlyRegister, hr, hal, h0, h8, h16, hab, not_false_eq_true, true_and, and_false,
    false_and, false_or, ne_eq, not_true]
  tauto

theorem refusedAccess_of_misaligned {s : State} {x : HostAccess} (h : accessAddr x % widthBytes (accessWidth x) ≠ 0) :
    RefusedAccess s x := .inr (.inr (.inr (.inr (.inl h))))

theorem refusedAccess_of_registerWidth {s : State} {x : HostAccess} (hr : IsRegister (accessAddr x))
    (hw : accessWidth x ≠ .w32) : RefusedAccess s x := .inr (.inr (.inr (.inl ⟨hr, hw⟩)))

theorem refusedIff_hostRead (a : Word) (width : Width) (s : State) :
    RefusedIff (RefusedAccess s (.read a width)) (hostRead a width s) := by
  unfold hostRead
  dsimp only
  split
  next hmis => exact .refused _ (refusedAccess_of_misaligned hmis)
  next hal =>
    split
    next r hr =>
      split
      next hw =>
        subst hw
        exact (refusedIff_readReg r s).of_iff
          ((refusedAccess_register_iff (x := .read a .w32) (regAt_eq_some_iff.mp hr) rfl).trans (by simp [isWrite]))
      next hw => exact .refused _ (refusedAccess_of_registerWidth (isRegister_iff.mpr ⟨r, hr⟩) hw)
    next hnone =>
      have iff := refusedAccess_of_not_register_iff (s := s) (x := .read a width) (not_isRegister_iff.mpr hnone)
        (not_not.mp hal)
      split
      next hin =>
        have hin : InInWindow s (.read a width) := inWindow_iff.mp hin
        exact .next _ (by simp [iff, hin, isWrite])
      next hin =>
        have hin : ¬ InInWindow s (.read a width) := fun h => hin (inWindow_iff.mpr h)
        split
        next hout =>
          have hout : InOutWindow s (.read a width) := inWindow_iff.mp hout
          exact .next _ (by simp [iff, hout, isWrite])
        next hout =>
          have hout : ¬ InOutWindow s (.read a width) := fun h => hout (inWindow_iff.mpr h)
          exact .refused _ (iff.mpr (.inl ⟨hin, hout⟩))

theorem refusedIff_hostWrite {s : State} (hp : s.params.wf = true) (a : Word) (width : Width) (v : Word) :
    RefusedIff (RefusedAccess s (.write a width v)) (hostWrite a width v s) := by
  unfold hostWrite
  dsimp only
  split
  next hmis => exact .refused _ (refusedAccess_of_misaligned hmis)
  next hal =>
    split
    next r hr =>
      split
      next hw =>
        subst hw
        have hoff := regAt_eq_some_iff.mp hr
        have hcmd : a = 0#32 ↔ r = .cmd := by
          rw [← BitVec.toNat_inj, hoff]
          cases r <;> decide
        exact (refusedIff_writeReg r v s).of_iff
          ((refusedAccess_register_iff (x := .write a .w32 v) hoff rfl).trans (by simp [isWrite, IsAbort, hcmd]))
      next hw => exact .refused _ (refusedAccess_of_registerWidth (isRegister_iff.mpr ⟨r, hr⟩) hw)
    next hnone =>
      have iff := refusedAccess_of_not_register_iff (s := s) (x := .write a width v) (not_isRegister_iff.mpr hnone)
        (not_not.mp hal)
      split
      next hin =>
        have hin : InInWindow s (.write a width v) := inWindow_iff.mp hin
        split
        next hb => exact .refused _ (iff.mpr (.inr ⟨rfl, .inr ⟨(busy_iff s).mp hb, hin⟩⟩))
        next hb =>
          have hout : ¬ InOutWindow s (.write a width v) := fun h => not_inInWindow_of_inOutWindow hp h hin
          exact .next _ (by simp [iff, hin, hout, (not_busy_iff s).mp hb])
      next hin =>
        have hin : ¬ InInWindow s (.write a width v) := fun h => hin (inWindow_iff.mpr h)
        split
        next hout => exact .refused _ (iff.mpr (.inr ⟨rfl, .inl (inWindow_iff.mp hout)⟩))
        next hout =>
          have hout : ¬ InOutWindow s (.write a width v) := fun h => hout (inWindow_iff.mpr h)
          exact .refused _ (iff.mpr (.inl ⟨hin, hout⟩))

theorem refusedIff_hostAccess {s : State} (hp : s.params.wf = true) (x : HostAccess) :
    RefusedIff (RefusedAccess s x) (hostAccess x s) := by
  cases x with
  | read a width => exact refusedIff_hostRead a width s
  | write a width v => exact refusedIff_hostWrite hp a width v

/-- Settles O10: each branch of a read and of a write answers as rule R62's clauses for its place say. -/
theorem refusedAccessesAreRuleR62 : Obligations.RefusedAccessesAreRuleR62 := fun _ x hp =>
  ⟨(refusedIff_hostAccess hp x).exists_iff, (refusedIff_hostAccess hp x).no_fault⟩

/-! ## Accesses that only show or store (20_memory.md rule R67) -/

theorem policyWord_toNat (p : Params) : (policyWord p).toNat = policyNumber p := by
  unfold policyWord policyNumber
  cases p.hexCase <;> cases p.eof <;> rfl

theorem argStored_toNat (v : Word) : (argStored v).toNat = v.toNat % 65536 :=
  (BitVec.toNat_append ..).trans (by simp)

/-- Every register of the first table is shown: its value fits 32 bits. -/
theorem readsAs_shownRegisters {s : State} (hp : s.params.wf = true) {x : Word × Nat} (hx : x ∈ shownRegisters s) :
    ReadsAs s x.1 .w32 x.2 := by
  obtain ⟨-, hmax, -, -, hin, hout, hchunk, hticks, -⟩ := wf_facts hp
  have shown (n : Nat) (h : n < 2 ^ 32) : (BitVec.ofNat 32 n).toNat = n := Nat.mod_eq_of_lt h
  simp only [shownRegisters, List.cons_append, List.nil_append, List.mem_cons, List.not_mem_nil, or_false] at hx
  obtain rfl | rfl | rfl | rfl | rfl | rfl | rfl | rfl | rfl | rfl := hx
  · exact readsAs_register .arg rfl rfl
  · exact readsAs_register .inLen rfl rfl
  · exact readsAs_register .cfgTimeout rfl rfl
  · exact readsAs_register .cfgPort rfl (BitVec.toNat_setWidth_of_le (by decide))
  · exact readsAs_register .paramMaxPacketLen rfl (shown _ (by omega))
  · exact readsAs_register .paramInCap rfl (shown _ (by omega))
  · exact readsAs_register .paramOutCap rfl (shown _ (by omega))
  · exact readsAs_register .paramRxChunkMax rfl (shown _ hchunk)
  · exact readsAs_register .paramTicksPerUnit rfl (shown _ hticks)
  · exact readsAs_register .paramPolicy rfl (policyWord_toNat s.params)

theorem readsAs_outputRegisters {s : State} (hs : s.outputsSettled = true) (hi : s.phase = .idle) {x : Word × Nat}
    (hx : x ∈ outputRegisters s) : ReadsAs s x.1 .w32 x.2 := by
  simp only [outputRegisters, List.mem_cons, List.not_mem_nil, or_false] at hx
  obtain rfl | rfl := hx
  · exact readsAs_register .result (congrArg _ (observeOutput_settled hs hi 4 s.result)) rfl
  · exact readsAs_register .outLen (congrArg _ (observeOutput_settled hs hi 4 s.outLen)) rfl

/-- A write answered outside CMD, ARG and IN_LEN is one inside IN that finds no command in progress. -/
theorem inWindow_of_hostWrite {s t : State} {a : Word} {width : Width} {v : Word} (hp : s.params.wf = true)
    (h0 : a ≠ 0) (h8 : a ≠ 8) (h16 : a ≠ 0x10) (h : hostWrite a width v s = .next t) :
    a.toNat % widthBytes width = 0 ∧ inWindow inBase s.params.inCap a.toNat (widthBytes width) = true ∧
      s.phase = .idle := by
  have hno : ¬ RefusedAccess s (.write a width v) := (h ▸ refusedIff_hostWrite hp a width v).not_of_next
  have hal : a.toNat % widthBytes width = 0 := by
    by_contra hmis
    exact hno (refusedAccess_of_misaligned hmis)
  have hreg : ¬ IsRegister a.toNat := fun hr =>
    hno (.inr (.inr (.inl ⟨rfl, .inl ⟨hr, fun e => h0 (BitVec.eq_of_toNat_eq e), fun e => h8 (BitVec.eq_of_toNat_eq e),
      fun e => h16 (BitVec.eq_of_toNat_eq e)⟩⟩)))
  rw [refusedAccess_of_not_register_iff (x := .write a width v) hreg hal] at hno
  have hin : InInWindow s (.write a width v) := by
    by_contra hin
    by_cases hout : InOutWindow s (.write a width v)
    exacts [hno (.inr ⟨rfl, .inl hout⟩), hno (.inl ⟨hin, hout⟩)]
  refine ⟨hal, inWindow_iff.mpr hin, ?_⟩
  by_contra hb
  exact hno (.inr ⟨rfl, .inr ⟨hb, hin⟩⟩)

/-- Settles O11: a read only moves what the host knows, and each write stores where it says. -/
theorem hostAccessesOnlyStore : Obligations.HostAccessesOnlyStore := by
  intro s t
  refine ⟨fun hp x hx => readsAs_shownRegisters hp hx, fun hs hi x hx => readsAs_outputRegisters hs hi hx,
    fun a width h => ?_, fun v h => ?_, fun v h => ?_, fun a width v hp h0 h8 h16 h => ?_⟩
  · obtain ⟨_, _, _, rfl, -⟩ := readEffect_of_hostRead h
    rfl
  · replace h := (hostWrite_register .arg v s).symm.trans h
    simp only [writeReg] at h
    split at h <;> cases h
    exact ⟨rfl, argStored_toNat v⟩
  · replace h := (hostWrite_register .inLen v s).symm.trans h
    simp only [writeReg] at h
    split at h <;> cases h
    rfl
  · obtain ⟨hal, hw, hi⟩ := inWindow_of_hostWrite hp h0 h8 h16 h
    cases (hostWrite_inWindow v hal hw hi).symm.trans h
    have hlen := leBytes_length (widthBytes width) v.toNat
    refine ⟨rfl, fun k hk => ?_, fun b hb => ?_⟩
    · rw [byteAt_withStored, if_pos ⟨by omega, by omega⟩, Nat.add_sub_cancel_left,
        List.getD_eq_getElem?_getD, leBytes_getElem? _ hk, Option.getD_some]
    · rw [byteAt_withStored, if_neg (by omega)]

end Sys2Proof.Machine
end

section
/-! SUPPORT. The command word and the opcode table: the decoder undoes the encoder, a command's row, and the words that stand
for no command (30_encoding.md rules R80, R84, R92). -/
namespace Sys2Proof.Machine
open Sys2Proof.Safety

/-! ## Decode after encode -/

/-- The word's fields are the instruction's, and its opcode's row accepts them. -/
theorem decodeWord_encode (i : Instr) : decodeWord (encode i) = .ok i := by
  rw [decodeWord, if_pos (encode_reserved i), encode_opc, encode_f0, encode_f1]
  cases i <;> rfl

theorem decodeBytes_encodeBytes (i : Instr) (rest : Bytes) : decodeBytes (encodeBytes i ++ rest) = .ok (i, rest) := by
  rw [encodeBytes, decodeBytes_leBytes, decodeWord_encode]
  rfl

/-- Settles O1: an instruction's bytes spell its word, which decodes to it, and a word is determined by the fields that its
row fixes. -/
theorem encodeDecodeAgree : Obligations.EncodeDecodeAgree :=
  ⟨decodeBytes_encodeBytes, fun _ _ => encode_of_decodeWord⟩

/-- Settles O3: each of the words is the encoding of the command it stands for. -/
theorem specWordsDecode : Obligations.SpecWordsDecode :=
  ⟨decodeWord_encode (.sendPacket false true), decodeWord_encode (.sendPacket true true),
    decodeWord_encode (.sendPacket false false), decodeWord_encode (.sendPacket true false),
    decodeWord_encode (.createPacket false), decodeWord_encode (.createPacket true),
    decodeWord_encode (.recvPacket true), decodeWord_encode (.recvPacket false),
    decodeWord_encode (.setAckMode true), decodeWord_encode (.setAckMode false),
    decodeWord_encode .recvAndDecode, decodeWord_encode .disconnect⟩

/-! ## The row of a command -/

/-- The flag bits that rule R84 gives a meaning for the command. -/
def flagBits : Instr → Word
  | .createPacket _ | .setAckMode _ | .recvPacket _ => 0x100
  | .sendPacket _ _ => 0x300
  | .encodePayload | .decodePayload | .computeChecksum | .splitPacket | .validatePacket | .connect | .disconnect
  | .checkAck | .sendAck | .sendNack | .sendInterrupt | .recvAndDecode => 0

/-- The command's row of the opcode table: its opcode in OPC, every bit but its flags fixed. -/
def rowOf (i : Instr) : OpcodeRow := ⟨i.opcode.setWidth 32, ~~~ flagBits i⟩

theorem rowOf_mem_and_matches_encode (i : Instr) : rowOf i ∈ opcodeRows ∧ (rowOf i).matches (encode i) = true := by
  cases i
  case createPacket f | setAckMode f | recvPacket f => cases f <;> decide
  case sendPacket f g => cases f <;> cases g <;> decide
  all_goals decide

/-- The word of a row whose free bits are those of the flags f0 and f1. -/
def rowWord (r : OpcodeRow) (f0 f1 : Bool) : Word :=
  r.pattern ||| (((if f0 then 0x100 else 0) ||| (if f1 then 0x200 else 0)) &&& ~~~ r.mask)

/-- The only bits a row leaves free are F0 and F1. -/
theorem free_bits_are_flags : ∀ r ∈ opcodeRows, ~~~ r.mask = 0x300 &&& ~~~ r.mask := by decide

theorem and_flags (w : Word) : w &&& 0x300 = (if w.f0 then 0x100 else 0) ||| (if w.f1 then 0x200 else 0) := by
  rw [show (0x300 : Word) = BitVec.twoPow 32 8 ||| BitVec.twoPow 32 9 from rfl, BitVec.and_or_distrib_left,
    BitVec.and_twoPow, BitVec.and_twoPow]
  rfl

theorem eq_rowWord_of_matches {r : OpcodeRow} {w : Word} (hr : r ∈ opcodeRows) (h : r.matches w = true) :
    w = rowWord r w.f0 w.f1 :=
  calc w = (w &&& r.mask) ||| (w &&& ~~~ r.mask) := by
          rw [← BitVec.and_or_distrib_left, BitVec.or_not_self, BitVec.and_allOnes]
    _ = r.pattern ||| (w &&& 0x300 &&& ~~~ r.mask) := by
          rw [beq_iff_eq.mp h, BitVec.and_assoc, ← free_bits_are_flags r hr]
    _ = rowWord r w.f0 w.f1 := by rw [and_flags, rowWord]

/-- Whatever its flags, a word of a row decodes to a command of that row. -/
theorem decodeWord_rowWord :
    ∀ r ∈ opcodeRows, ∀ f0 f1, (decodeWord (rowWord r f0 f1)).toOption.map rowOf = some r := by decide

/-- A word matches a row exactly when it decodes to a command of the row. -/
theorem matches_iff_exists_decodeWord {r : OpcodeRow} (hr : r ∈ opcodeRows) (w : Word) :
    r.matches w = true ↔ ∃ i, decodeWord w = .ok i ∧ rowOf i = r := by
  constructor
  · intro h
    have hd := decodeWord_rowWord r hr w.f0 w.f1
    rw [← eq_rowWord_of_matches hr h] at hd
    cases hw : decodeWord w with
    | error k => simp [hw, Except.toOption] at hd
    | ok i => exact ⟨i, rfl, by simpa [hw, Except.toOption] using hd⟩
  · rintro ⟨i, h, rfl⟩
    rw [← encode_of_decodeWord h]
    exact (rowOf_mem_and_matches_encode i).2

theorem no_row_iff_no_command (w : Word) :
    (∀ r ∈ opcodeRows, r.matches w = false) ↔ ∀ i, decodeWord w ≠ .ok i := by
  constructor
  · intro h i hi
    have hrow := (rowOf_mem_and_matches_encode i).1
    exact Bool.eq_false_iff.mp (h _ hrow) ((matches_iff_exists_decodeWord hrow w).mpr ⟨i, hi, rfl⟩)
  · intro h r hr
    rw [Bool.eq_false_iff, ne_eq, matches_iff_exists_decodeWord hr]
    rintro ⟨i, hi, -⟩
    exact h i hi

/-! ## Reserved words (30_encoding.md rule R92) -/

theorem opc_toNat (w : Word) : w.opc.toNat = w.toNat % 256 := by
  simp [Word.opc, BitVec.extractLsb'_toNat]

theorem reserved_eq_zero_iff (w : Word) : w.reserved = 0 ↔ w.toNat / 1024 = 0 := by
  have hw := w.isLt
  rw [Word.reserved, ← BitVec.toNat_inj, BitVec.extractLsb'_toNat, Nat.shiftRight_eq_div_pow]
  change _ = 0 ↔ _
  omega

theorem noFlags_accepts_iff (i : Instr) (f0 f1 : Bool) :
    (∃ j, noFlags i f0 f1 = .ok j) ↔ f0 = false ∧ f1 = false := by
  cases f0 <;> cases f1 <;> simp [noFlags]

theorem onlyF0_accepts_iff (i : Bool → Instr) (f0 f1 : Bool) : (∃ j, onlyF0 i f0 f1 = .ok j) ↔ f1 = false := by
  cases f1 <;> simp [onlyF0]

/-- The rows accept an opcode that is not reserved, with its flags 0 where rule R84 gives 0. -/
theorem decodeOpcode_ok_iff (opc : Byte) (f0 f1 : Bool) :
    (∃ i, decodeOpcode opc f0 f1 = .ok i) ↔
      ¬ ReservedOpcode opc.toNat ∧ (f0 = true → UsesF0 opc.toNat) ∧ (f1 = true → opc.toNat = 0x20) := by
  unfold decodeOpcode
  split
  case h_17 =>
    have : ReservedOpcode opc.toNat := by
      simp only [imp_false] at *
      unfold ReservedOpcode
      bv_omega
    simp [this]
  all_goals simp [noFlags_accepts_iff, onlyF0_accepts_iff, ReservedOpcode, UsesF0]

theorem reservedWord_iff (w : Word) : ReservedWord w ↔ ∀ i, decodeWord w ≠ .ok i := by
  rw [← not_iff_not, not_forall_not, decodeWord, ReservedWord, ← opc_toNat]
  split
  next hr => simp [decodeOpcode_ok_iff, (reserved_eq_zero_iff w).mp hr, Word.f0, Word.f1]
  next hr => simp [mt (reserved_eq_zero_iff w).mpr hr]

/-- Settles O2: a command's row holds exactly its words, and each row of the decoder accepts what rule R92 leaves. -/
theorem reservedWordsMatchNoRow : Obligations.ReservedWordsMatchNoRow := by
  intro w
  refine ⟨(reservedWord_iff w).trans (no_row_iff_no_command w).symm, reservedWord_iff w, fun r hr q hq hrw hqw => ?_⟩
  obtain ⟨i, hi, rfl⟩ := (matches_iff_exists_decodeWord hr w).mp hrw
  obtain ⟨j, hj, rfl⟩ := (matches_iff_exists_decodeWord hq w).mp hqw
  cases hi.symm.trans hj
  rfl

/-! ## The operand (30_encoding.md rule R82) -/

/-- Settles O14: IN[0] stands at the window's base. -/
theorem operandIsTheInBuffer : Obligations.OperandIsTheInBuffer :=
  fun s k => bytesAt_getElem? s inBase s.inLen.toNat k

end Sys2Proof.Machine
end

section
/-! SUPPORT. Decode and the token grammar: each equation of Decode is a rule of the grammar (41_codec.md rule R141;
30_encoding.md rules R91, R93). -/
namespace Sys2Proof.Machine
open Sys2Proof.Safety

/-! ## The grammar's rules hold of Decode -/

theorem countOf_of_legal {c : Byte} (h : LegalCount c) : countOf c = .ok (c.toNat - 28) := by
  obtain ⟨hlo, hhi, hne, hns⟩ := h
  rcases countOf_cases c with ⟨-, hc⟩ | ⟨hf, -⟩ | ⟨hr, -⟩
  · exact hc
  · exact (hf.elim hne hns).elim
  · omega

theorem countOf_of_framing {c : Byte} (h : c = 0x23 ∨ c = 0x24) : countOf c = .error .rleCountFraming := by
  rcases h with rfl | rfl <;> rfl

theorem countOf_of_range {c : Byte} (h : c.toNat < 0x20 ∨ 0x7E < c.toNat) : countOf c = .error .rleCountRange := by
  rcases countOf_cases c with ⟨⟨hlo, hhi, -⟩, -⟩ | ⟨rfl | rfl, -⟩ | ⟨-, hc⟩
  · omega
  · exact absurd h (by decide)
  · exact absurd h (by decide)
  · exact hc

/-- A byte with no `*` after it stands for itself, also where it is the last. -/
theorem decodeBytesOf_plain {b : Byte} {e : Bytes} (hb : b ≠ 0x7D) (he : e.head? ≠ some 0x2A) :
    decodeBytesOf (b :: e) = (decodeBytesOf e).map (b :: ·) := by
  cases e with
  | nil => exact decodeBytesOf_last hb
  | cons x e => exact decodeBytesOf_literal e hb fun hx => he (congrArg some hx)

theorem decodeBytesOf_legal_run {b c : Byte} (e : Bytes) (hb : b ≠ 0x7D) (hc : LegalCount c) :
    decodeBytesOf (b :: 0x2A :: c :: e) = (decodeBytesOf e).map (List.replicate (c.toNat - 28) b ++ ·) := by
  rw [decodeBytesOf_run c e hb, countOf_of_legal hc]

theorem decodeBytesOf_of_decodes {e out : Bytes} (h : Decodes e out) : decodeBytesOf e = .ok out := by
  induction h with
  | nil => rfl
  | escape x _ ih => rw [decodeBytesOf_escape, ih]; rfl
  | run b c hb hc _ ih => rw [decodeBytesOf_legal_run _ hb hc, ih]; rfl
  | literal b hb he _ ih => rw [decodeBytesOf_plain hb he, ih]; rfl

theorem decodeBytesOf_of_malformed {e : Bytes} {code : Byte} (h : Malformed e code) :
    ∃ k, decodeBytesOf e = .error k ∧ k.code = code := by
  induction h with
  | escMissing => exact ⟨.escMissing, rfl, rfl⟩
  | countMissing b hb => exact ⟨_, decodeBytesOf_run_end hb, rfl⟩
  | countFraming b c e hb hc => exact ⟨_, by rw [decodeBytesOf_run c e hb, countOf_of_framing hc], rfl⟩
  | countRange b c e hb hc => exact ⟨_, by rw [decodeBytesOf_run c e hb, countOf_of_range hc], rfl⟩
  | afterEscape x _ ih =>
    obtain ⟨k, hk, hcode⟩ := ih
    exact ⟨k, by rw [decodeBytesOf_escape, hk]; rfl, hcode⟩
  | afterRun b c hb hc _ ih =>
    obtain ⟨k, hk, hcode⟩ := ih
    exact ⟨k, by rw [decodeBytesOf_legal_run _ hb hc, hk]; rfl, hcode⟩
  | afterLiteral b hb he _ ih =>
    obtain ⟨k, hk, hcode⟩ := ih
    exact ⟨k, by rw [decodeBytesOf_plain hb he, hk]; rfl, hcode⟩

/-! ## Decode's answer is the grammar's -/

/-- What the grammar says of a sequence with this answer. -/
def Meaning (e : Bytes) : Except Err Bytes → Prop
  | .ok out => Decodes e out
  | .error k => Malformed e k.code

/-- A token put before a sequence carries the answer over when it does so for both outcomes. -/
theorem Meaning.map {e e' : Bytes} {f : Bytes → Bytes} {r : Except Err Bytes} (h : Meaning e r)
    (hok : ∀ {out}, Decodes e out → Decodes e' (f out)) (herr : ∀ {k}, Malformed e k → Malformed e' k) :
    Meaning e' (r.map f) :=
  match r, h with
  | .ok _, h => hok h
  | .error _, h => herr h

/-- The cases at a position are those of rule R141, in its order. -/
theorem meaning_decodeBytesOf : ∀ e : Bytes, Meaning e (decodeBytesOf e)
  | [] => .nil
  | b :: e => by
    by_cases hb : b = 0x7D
    · subst hb
      match e with
      | [] => exact .escMissing
      | x :: e =>
        rw [decodeBytesOf_escape]
        exact (meaning_decodeBytesOf e).map (.escape x) (.afterEscape x)
    · by_cases he : e.head? = some 0x2A
      · match e, he with
        | [_], rfl =>
          rw [decodeBytesOf_run_end hb]
          exact .countMissing b hb
        | _ :: c :: e, rfl =>
          rcases countOf_cases c with ⟨hc, -⟩ | ⟨hc, hk⟩ | ⟨hc, hk⟩
          · rw [decodeBytesOf_legal_run e hb hc]
            exact (meaning_decodeBytesOf e).map (.run b c hb hc) (.afterRun b c hb hc)
          · rw [decodeBytesOf_run c e hb, hk]
            exact .countFraming b c e hb hc
          · rw [decodeBytesOf_run c e hb, hk]
            exact .countRange b c e hb hc
      · rw [decodeBytesOf_plain hb he]
        exact (meaning_decodeBytesOf e).map (.literal b hb he) (.afterLiteral b hb he)
termination_by e => e.length

theorem decodeBytesOf_eq_ok_iff (e out : Bytes) : decodeBytesOf e = .ok out ↔ Decodes e out :=
  ⟨fun h => by simpa [h, Meaning] using meaning_decodeBytesOf e, decodeBytesOf_of_decodes⟩

theorem decodeBytesOf_eq_error_iff (e : Bytes) (code : Byte) :
    (∃ k, decodeBytesOf e = .error k ∧ k.code = code) ↔ Malformed e code := by
  refine ⟨?_, decodeBytesOf_of_malformed⟩
  rintro ⟨k, hk, rfl⟩
  simpa [hk, Meaning] using meaning_decodeBytesOf e

/-- Settles O17: Decode answers every sequence once, and its answer is the grammar's. -/
theorem tokensCoverEveryPayload : Obligations.TokensCoverEveryPayload := by
  intro e
  simp only [← decodeBytesOf_eq_ok_iff, ← decodeBytesOf_eq_error_iff]
  cases decodeBytesOf e <;> simp

end Sys2Proof.Machine
end

section
/-! SUPPORT. The command cycle (40_command_cycle.md): issue, dispatch, the turn a step takes, the two ends of a command, and
what a codec command reads. -/
namespace Sys2Proof.Machine
open Sys2Proof.Safety

/-! ## The two ends of a command (rules R123, R125) -/

/-- Settles O7: Complete is Finish where the result fits and Fail where it does not. -/
theorem completeWritesTheResult : Obligations.CompleteWritesTheResult := fun s out r hp =>
  ⟨completed_complete hp, fun hlong => complete_of_lt hlong ▸ failed_fail .outOverflow 0 s,
    sameFixed_complete out r s, sameLinkSide_complete out r s, sameTransport_complete out r s⟩

/-- Settles O8: the record and the frames of Fail. -/
theorem failRecordsTheError : Obligations.FailRecordsTheError := fun e r s =>
  ⟨failed_fail e r s, sameFixed_fail e r s, sameLinkSide_fail e r s, sameTransport_fail e r s⟩

theorem outBytes_fail (e : Err) (r : Word) (s : State) : (fail e r s).outBytes = [] := rfl

/-! ## Codec commands (rule R128) -/

/-- The six codec commands, in every form. -/
def IsCodec (i : Instr) : Prop :=
  i = .encodePayload ∨ i = .decodePayload ∨ i = .computeChecksum ∨ (∃ ck, i = .createPacket ck) ∨ i = .splitPacket ∨
    i = .validatePacket

/-- Two states have the same operands: the parameters, IN_LEN, IN[0:IN_LEN) and ARG. -/
structure SameInput (s s' : State) : Prop where
  params : s.params = s'.params
  inLen : s.inLen = s'.inLen
  inBytes : inBytes s = inBytes s'
  arg : s.arg = s'.arg

/-- A command ends in t from s and in t' from s', by the same Fail or the same Complete. -/
inductive SameEnd (s s' : State) : State → State → Prop where
  | fail (e : Err) (r : Word) : SameEnd s s' (fail e r s) (fail e r s')
  | complete (out : Bytes) (r : Word) : SameEnd s s' (complete out r s) (complete out r s')

theorem sameInput_refl (s : State) : SameInput s s := ⟨rfl, rfl, rfl, rfl⟩

theorem sameEnd_completeWith (r : Except Err Bytes) (s s' : State) :
    SameEnd s s' (completeWith r s) (completeWith r s') := by
  cases r with
  | error e => exact .fail e 0
  | ok out => exact .complete out 0

section
variable {s s' : State} (h : SameInput s s')
include h

theorem sameEnd_requireInLen {k : State → State} (hk : SameEnd s s' (k s) (k s')) :
    SameEnd s s' (requireInLen k s) (requireInLen k s') := by
  unfold requireInLen
  rw [← h.params, ← h.inLen]
  split
  exacts [.fail _ _, hk]

/-- From the same operands a codec command computes the same end. -/
theorem sameEnd_exec {i : Instr} (hi : IsCodec i) {t t' : State} (ht : exec i s = .next t) (ht' : exec i s' = .next t') :
    SameEnd s s' t t' := by
  cases i <;> cases ht <;> cases ht'
  case encodePayload | computeChecksum =>
    refine sameEnd_requireInLen h ?_
    rw [← h.inBytes]
    exact .complete _ _
  case decodePayload =>
    refine sameEnd_requireInLen h ?_
    rw [← h.inBytes]
    exact sameEnd_completeWith ..
  case createPacket =>
    refine sameEnd_requireInLen h ?_
    rw [customChecksum, customChecksum, ← h.params, ← h.inBytes, ← h.arg]
    exact sameEnd_completeWith ..
  case splitPacket =>
    refine sameEnd_requireInLen h ?_
    dsimp only
    rw [← h.inBytes]
    split
    exacts [.fail _ _, .complete _ _]
  case validatePacket =>
    refine sameEnd_requireInLen h ?_
    rw [← h.params, ← h.inBytes]
    split
    exacts [.fail _ _, .complete _ _]
  all_goals simp [IsCodec] at hi

end

/-- A command answers with a next state whatever state it finds. -/
theorem exec_answers (i : Instr) (s : State) : ∃ t, exec i s = .next t := by
  cases i <;> exact ⟨_, rfl⟩

theorem writesOf_codec {i : Instr} (hi : IsCodec i) : writesOf i = {} := by
  rcases hi with rfl | rfl | rfl | ⟨_, rfl⟩ | rfl | rfl <;> rfl

/-- Every end closes the deadline's window. -/
theorem SameEnd.armed {s s' t t' : State} (h : SameEnd s s' t t') : t.armed = false := by
  cases h with
  | fail => rfl
  | complete out r => rcases complete_cases out r s with ⟨-, e⟩ | ⟨-, e⟩ <;> rw [e] <;> rfl

/-- The same end shows the host the same outputs and STATUS. -/
theorem SameEnd.outputs {s s' t t' : State} (h : SameEnd s s' t t') (hp : s.params = s'.params)
    (hwf : s.params.wf = true) :
    t.outLen = t'.outLen ∧ t.outBytes = t'.outBytes ∧ t.result = t'.result ∧ t.done = t'.done ∧ t.err = t'.err ∧
      t.errCode = t'.errCode ∧ t.busy = t'.busy := by
  cases h with
  | fail e r => exact ⟨rfl, rfl, rfl, rfl, rfl, rfl, rfl⟩
  | complete out r =>
    rcases complete_cases out r s with ⟨hl, e⟩ | ⟨hl, e⟩
    · have hout : out.length < 2 ^ 32 := by
        have := (wf_facts hwf).2.2.2.2.2.1
        omega
      rw [e, complete_of_le (hp ▸ hl)]
      exact ⟨rfl, (outBytes_finish out r s hout).trans (outBytes_finish out r s' hout).symm, rfl, rfl, rfl, rfl, rfl⟩
    · rw [e, complete_of_lt (hp ▸ hl)]
      exact ⟨rfl, rfl, rfl, rfl, rfl, rfl, rfl⟩

/-- Settles O23: a codec command writes no element of the link side, and its end is computed from its operands. -/
theorem codecCommandsArePure : Obligations.CodecCommandsArePure := by
  intro i hi
  refine ⟨fun s => ?_, fun s s' t t' hp hwf hl hin ha ht ht' => (sameEnd_exec ⟨hp, hl, hin, ha⟩ hi ht ht').outputs hp hwf⟩
  obtain ⟨t, ht⟩ := exec_answers i s
  obtain ⟨fixed, link, ackMode, rxBuf, acc, tArm, transport⟩ := (writesOf_codec hi ▸ stepLeaves_exec ht).toLeaves
  exact ⟨t, ht, fixed, ⟨link rfl, ackMode rfl, rxBuf rfl, acc rfl, tArm rfl⟩, transport rfl,
    fun _ => (sameEnd_exec (sameInput_refl s) hi ht ht).armed⟩

/-! ## The IN_LEN check (rule R122) -/

theorem exec_sendPacket_start {s : State} (hp : s.phase = .start) (ck chk : Bool) :
    exec (.sendPacket ck chk) s = .next (sendPacketStart ck s) := by
  simp only [exec, execSendPacket, hp]

/-- Settles O22: each of these commands begins with the check. -/
theorem inLenCheckedFirst : Obligations.InLenCheckedFirst := by
  intro s i hp hlen hi
  have hcheck : ∃ k, exec i s = .next (requireInLen k s) := by
    cases i
    case encodePayload | decodePayload | computeChecksum | createPacket | splitPacket | validatePacket => exact ⟨_, rfl⟩
    case sendPacket ck chk => exact ⟨_, exec_sendPacket_start hp ck chk⟩
    all_goals simp at hi
  obtain ⟨k, hk⟩ := hcheck
  exact ⟨_, requireInLen_of_not_ok hlen ▸ hk, failRecordsTheError .inLenRange 0 s⟩

/-! ## Issue (rule R120) -/

theorem writeCmd_of_idle {s : State} (hp : s.phase = .idle) (w : Word) : writeCmd w s = .next (issue w s) := by
  simp [writeCmd, State.busy, hp]

/-- Settles O5: the access is a write of CMD, which issues. -/
theorem cmdWriteIssues : Obligations.CmdWriteIssues := by
  intro s w hp
  have hissue : hostAccess (.write 0 .w32 w) s = .next (issue w s) :=
    (hostWrite_register .cmd w s).trans (writeCmd_of_idle hp w)
  exact ⟨issue w s, hissue, rfl, rfl, rfl, rfl, rfl, rfl, rfl, rfl, { sameLinkSide_refl s with },
    { sameTransport_refl s with }, rfl, rfl, rfl, rfl, rfl, rfl, rfl, rfl, fun _ => rfl⟩

/-! ## The block's step (rules R121, R127) -/

theorem blockStep_of_idle {s : State} (hp : s.phase = .idle) : blockStep s = .next s := by
  simp only [blockStep, hp]

theorem blockStep_of_dispatch {s : State} (hp : s.phase = .dispatch) : blockStep s = .next (dispatchCommand s) := by
  simp only [blockStep, hp]

theorem blockStep_of_command {s : State} {i : Instr} (hi : s.phase ≠ .idle) (hd : s.phase ≠ .dispatch)
    (hw : decodeWord s.curCmd = .ok i) : blockStep s = exec i s := by
  unfold blockStep
  split
  case h_1 hp => exact absurd hp hi
  case h_2 hp => exact absurd hp hd
  all_goals rw [hw]

theorem dispatchCommand_of_ok {s : State} {i : Instr} (hw : decodeWord s.curCmd = .ok i) :
    dispatchCommand s = { s with phase := .start } := by
  rw [dispatchCommand, hw]

theorem dispatchCommand_of_no_command {s : State} (hw : ∀ i, decodeWord s.curCmd ≠ .ok i) :
    dispatchCommand s = fail .unknownCommand 0 s := by
  unfold dispatchCommand
  split
  next hi => exact absurd hi (hw _)
  next => rfl

/-- Settles O6: a word matches a row exactly when it decodes. -/
theorem dispatchLooksUpTheWord : Obligations.DispatchLooksUpTheWord := by
  intro s hp
  rw [blockStep_of_dispatch hp]
  constructor
  · rintro ⟨r, hr, hmatch⟩
    obtain ⟨i, hi, -⟩ := (matches_iff_exists_decodeWord hr _).mp hmatch
    rw [dispatchCommand_of_ok hi]
  · intro hnone
    rw [dispatchCommand_of_no_command ((no_row_iff_no_command _).mp hnone)]
    exact ⟨_, rfl, failRecordsTheError .unknownCommand 0 s⟩

/-! ## A step takes the next turn (log entry 1) -/

theorem step_of_no_turn {s : State} (ha : s.agenda = []) : step s = blockStep s := by
  simp only [step, nextTurn, ha]

theorem step_of_turn {s : State} {a : Turn} {rest : List Turn} (ha : s.agenda = a :: rest) :
    step s = takeTurn a { s with agenda := rest } := by
  simp only [step, nextTurn, ha]

/-- Where the block's turn comes first, the step is the block's and the other turns stay. -/
theorem step_of_blockFirst {s : State} {turns : List Turn} (ha : s.agenda = blockFirst turns) :
    step s = blockStep { s with agenda := turns } := by
  cases turns with
  | nil => rw [step_of_no_turn ha, ← show s.agenda = [] from ha]
  | cons a rest => exact step_of_turn ha

theorem withFetchWord_curCmd (s : State) (w : Word) : (s.withFetchWord 32 w.toNat).curCmd = w := by
  simp [State.withFetchWord, Nat.mod_eq_of_lt w.isLt, loadCommand]

theorem withFetchWord_phase (s : State) (nbits w : Nat) : (s.withFetchWord nbits w).phase = .start := rfl

theorem withFetchWord_agenda (s : State) (nbits w : Nat) : (s.withFetchWord nbits w).agenda = blockFirst s.agenda := rfl

theorem step_withFetchWord (s : State) (i : Instr) :
    step (s.withFetchWord 32 (encode i).toNat) =
      exec i { s.withFetchWord 32 (encode i).toNat with agenda := s.agenda } := by
  rw [step_of_blockFirst (withFetchWord_agenda ..)]
  refine blockStep_of_command (by simp [withFetchWord_phase]) (by simp [withFetchWord_phase]) ?_
  rw [withFetchWord_curCmd]
  exact decodeWord_encode i

/-- Settles O4: the equations of the block's step, of a step by its turn, and of a turn that the transport may refuse. -/
theorem stepRunsDecodedCommand : Obligations.StepRunsDecodedCommand := by
  refine ⟨fun s => ⟨step_of_no_turn, fun _ => step_of_turn⟩, fun _ => blockStep_of_idle, fun s i hi hd hw =>
      ⟨fun ha => (step_of_no_turn ha).trans (blockStep_of_command hi hd hw),
        fun rest ha => (step_of_turn ha).trans (blockStep_of_command hi hd hw)⟩,
    fun _ _ _ => step_of_turn, fun _ _ _ => step_of_turn, fun s bytes rest ha => ?_, fun s rest ha => ?_,
    fun _ _ _ => step_of_turn, step_withFetchWord⟩
  all_goals
    rw [step_of_turn ha]
    exact ⟨fun hopen => if_pos hopen, fun hclosed => if_neg (ne_true_of_eq_false hclosed)⟩

end Sys2Proof.Machine
end

section
/-! SUPPORT. Laws of Encode and Decode: the shape of Encode's output, how long the output of a token sequence is, and the
payloads that come back from Decode (41_codec.md rules R160 to R162). -/
namespace Sys2Proof.Machine
open Sys2Proof.Safety

/-! ## Encode's output (rule R161) -/

theorem mustEscape_iff (b : Byte) : mustEscape b = true ↔ b = 0x7D ∨ b = 0x24 ∨ b = 0x23 := by
  simp [mustEscape, ESC, SOP, EOP, or_assoc]

theorem mustEscape_eq_false_iff (b : Byte) : mustEscape b = false ↔ b ≠ 0x7D ∧ b ≠ 0x24 ∧ b ≠ 0x23 := by
  simp [← Bool.not_eq_true, mustEscape_iff]

theorem encodeBytesOf_cons_of_escaped {b : Byte} (hb : mustEscape b = true) (d : Bytes) :
    encodeBytesOf (b :: d) = 0x7D :: (b ^^^ 0x20) :: encodeBytesOf d := if_pos hb

theorem encodeBytesOf_cons_of_plain {b : Byte} (hb : mustEscape b = false) (d : Bytes) :
    encodeBytesOf (b :: d) = b :: encodeBytesOf d := if_neg (ne_true_of_eq_false hb)

/-- What stands for an escaped byte after its marker. -/
theorem xor_mask_of_escaped {b : Byte} (hb : mustEscape b = true) :
    b ^^^ 0x20 = 0x5D ∨ b ^^^ 0x20 = 0x04 ∨ b ^^^ 0x20 = 0x03 := by
  rcases (mustEscape_iff b).mp hb with rfl | rfl | rfl <;> decide

/-- No byte after a marker is itself in the escaped set. -/
theorem mustEscape_xor_mask {b : Byte} (hb : mustEscape b = true) : mustEscape (b ^^^ 0x20) = false := by
  rcases (mustEscape_iff b).mp hb with rfl | rfl | rfl <;> rfl

theorem length_encodeBytesOf (d : Bytes) : (encodeBytesOf d).length = d.length + d.countP mustEscape := by
  induction d with
  | nil => rfl
  | cons b d ih =>
    cases hb : mustEscape b
    · simp only [encodeBytesOf_cons_of_plain hb, List.countP_cons_of_neg (ne_true_of_eq_false hb), List.length_cons, ih]
      omega
    · simp only [encodeBytesOf_cons_of_escaped hb, List.countP_cons_of_pos hb, List.length_cons, ih]
      omega

/-- Every `}` of the output is the marker of one escaped byte. -/
theorem count_marker_encodeBytesOf (d : Bytes) : (encodeBytesOf d).count 0x7D = d.countP mustEscape := by
  induction d with
  | nil => rfl
  | cons b d ih =>
    cases hb : mustEscape b
    · have hne : b ≠ 0x7D := ((mustEscape_eq_false_iff b).mp hb).1
      rw [encodeBytesOf_cons_of_plain hb, List.count_cons_of_ne hne, List.countP_cons_of_neg (ne_true_of_eq_false hb), ih]
    · have hne : b ^^^ 0x20 ≠ 0x7D := ((mustEscape_eq_false_iff _).mp (mustEscape_xor_mask hb)).1
      rw [encodeBytesOf_cons_of_escaped hb, List.count_cons_self, List.count_cons_of_ne hne, List.countP_cons_of_pos hb, ih]

/-- The only byte of the escaped set in the output is the marker. -/
theorem eq_marker_of_mem_encodeBytesOf {x : Byte} {d : Bytes} (hx : x ∈ encodeBytesOf d) (he : mustEscape x = true) :
    x = 0x7D := by
  induction d with
  | nil => simp [encodeBytesOf] at hx
  | cons b d ih =>
    cases hb : mustEscape b
    · rw [encodeBytesOf_cons_of_plain hb] at hx
      rcases List.mem_cons.mp hx with rfl | hx
      · exact absurd he (ne_true_of_eq_false hb)
      · exact ih hx
    · rw [encodeBytesOf_cons_of_escaped hb] at hx
      rcases List.mem_cons.mp hx with rfl | hx
      · rfl
      rcases List.mem_cons.mp hx with rfl | hx
      · exact absurd he (ne_true_of_eq_false (mustEscape_xor_mask hb))
      · exact ih hx

theorem sop_not_mem_encodeBytesOf (d : Bytes) : 0x24 ∉ encodeBytesOf d :=
  fun h => absurd (eq_marker_of_mem_encodeBytesOf h rfl) (by decide)

theorem eop_not_mem_encodeBytesOf (d : Bytes) : 0x23 ∉ encodeBytesOf d :=
  fun h => absurd (eq_marker_of_mem_encodeBytesOf h rfl) (by decide)

/-- The byte after a marker is that of an escaped byte. -/
theorem exists_escaped_after_marker {d : Bytes} {k : Nat} (h : (encodeBytesOf d)[k]? = some 0x7D) :
    ∃ b, mustEscape b = true ∧ (encodeBytesOf d)[k + 1]? = some (b ^^^ 0x20) := by
  induction d generalizing k with
  | nil => simp [encodeBytesOf] at h
  | cons b d ih =>
    cases hb : mustEscape b
    · rw [encodeBytesOf_cons_of_plain hb] at h ⊢
      match k with
      | 0 => exact absurd (Option.some.inj h) ((mustEscape_eq_false_iff b).mp hb).1
      | k + 1 => exact ih h
    · rw [encodeBytesOf_cons_of_escaped hb] at h ⊢
      match k with
      | 0 => exact ⟨b, hb, rfl⟩
      | 1 => exact absurd (Option.some.inj h) ((mustEscape_eq_false_iff _).mp (mustEscape_xor_mask hb)).1
      | k + 2 => exact ih h

/-- Settles O25: the output byte by byte. -/
theorem encodeOutputShape : Obligations.EncodeOutputShape := by
  refine fun d => ⟨length_encodeBytesOf d, sop_not_mem_encodeBytesOf d, eop_not_mem_encodeBytesOf d, fun k hk => ?_⟩
  obtain ⟨b, hb, hnext⟩ := exists_escaped_after_marker hk
  simpa [hnext] using xor_mask_of_escaped hb

/-! ## How long a token sequence's output is (rule R162) -/

/-- A run stands for 4 to 98 bytes. -/
theorem legalCount_bounds {c : Byte} (h : LegalCount c) : 4 ≤ c.toNat - 28 ∧ c.toNat - 28 ≤ 98 := by
  obtain ⟨hlo, hhi, -⟩ := h
  omega

/-- Per byte a run expands most, three bytes to at most 98, and an escape shortens most, two bytes to one. -/
theorem length_bounds_of_decodes {e out : Bytes} (h : Decodes e out) :
    out.length ≤ 98 * (e.length / 3) + e.length % 3 ∧ (e.length + 1) / 2 ≤ out.length := by
  induction h with
  | nil => simp
  | escape | literal =>
    simp only [List.length_cons] at *
    omega
  | run b c _ hc _ ih =>
    have := legalCount_bounds hc
    simp only [List.length_cons, List.length_append, List.length_replicate] at *
    omega

/-- Settles O26: what is left over of a third counts as a whole one. -/
theorem decodeOutputLength : Obligations.DecodeOutputLength := by
  intro e out h
  obtain ⟨hupper, hlower⟩ := length_bounds_of_decodes ((decodeBytesOf_eq_ok_iff e out).mp h)
  exact ⟨by omega, hlower⟩

/-! ## The round trip (rule R160) -/

/-- A token sequence loses at most one byte for each `}` in it. -/
theorem length_le_add_markers_of_decodes {e out : Bytes} (h : Decodes e out) :
    e.length ≤ out.length + e.count 0x7D := by
  induction h with
  | nil => simp
  | @escape x e _ _ ih =>
    have : e.count 0x7D ≤ (x :: e).count 0x7D := List.count_le_count_cons
    simp only [List.length_cons, List.count_cons_self] at *
    omega
  | literal =>
    simp only [List.length_cons, List.count_cons] at *
    omega
  | run b c _ hc _ ih =>
    have := legalCount_bounds hc
    simp only [List.length_cons, List.length_append, List.length_replicate, List.count_cons] at *
    omega

/-- A run expands more than its three bytes, so what is as long as its output and its markers begins with no run. -/
theorem not_decodes_run_of_length {b : Byte} {e out : Bytes} (hb : b ≠ 0x7D) (hrun : e.head? = some 0x2A)
    (hlen : (b :: e).length = out.length + (b :: e).count 0x7D) : ¬ Decodes (b :: e) out := by
  intro h
  cases h with
  | escape => exact hb rfl
  | literal _ _ he => exact he hrun
  | run _ c _ hc hrest =>
    have := legalCount_bounds hc
    have := length_le_add_markers_of_decodes hrest
    simp only [List.length_cons, List.length_append, List.length_replicate, List.count_cons] at *
    omega

theorem map_cons_eq_ok_iff (r : Except Err Bytes) (b : Byte) (d : Bytes) :
    r.map (b :: ·) = .ok (b :: d) ↔ r = .ok d := by
  cases r <;> simp [Except.map]

theorem head?_encodeBytesOf_eq_star_iff (d : Bytes) : (encodeBytesOf d).head? = some 0x2A ↔ d.head? = some 0x2A := by
  cases d with
  | nil => rfl
  | cons b d =>
    cases hb : mustEscape b
    · rw [encodeBytesOf_cons_of_plain hb]; rfl
    · rw [encodeBytesOf_cons_of_escaped hb]
      rcases (mustEscape_iff b).mp hb with rfl | rfl | rfl <;> simp

theorem starsFollowEscaped_cons_iff (b : Byte) (d : Bytes) :
    StarsFollowEscaped (b :: d) ↔ (d.head? = some 0x2A → mustEscape b = true) ∧ StarsFollowEscaped d := by
  rw [StarsFollowEscaped, ← Nat.and_forall_add_one]
  simp [StarsFollowEscaped, mustEscape_iff, List.head?_eq_getElem?]

/-- Settles O24, by induction on the payload: an escaped byte always comes back, and any other exactly when no `*` follows
it, since it would begin a run. -/
theorem decodeEncodeRoundTrip : Obligations.DecodeEncodeRoundTrip := by
  intro d
  induction d with
  | nil => simp [encodeBytesOf, decodeBytesOf, StarsFollowEscaped]
  | cons b d ih =>
    rw [starsFollowEscaped_cons_iff, ← ih]
    cases hb : mustEscape b
    · have hne : b ≠ 0x7D := ((mustEscape_eq_false_iff b).mp hb).1
      by_cases hstar : d.head? = some 0x2A
      · have hlen : (encodeBytesOf (b :: d)).length = (b :: d).length + (encodeBytesOf (b :: d)).count 0x7D := by
          rw [length_encodeBytesOf, count_marker_encodeBytesOf]
        rw [encodeBytesOf_cons_of_plain hb] at hlen ⊢
        rw [decodeBytesOf_eq_ok_iff]
        exact iff_of_false (not_decodes_run_of_length hne ((head?_encodeBytesOf_eq_star_iff d).mpr hstar) hlen)
          fun h => Bool.false_ne_true (h.1 hstar)
      · rw [encodeBytesOf_cons_of_plain hb, decodeBytesOf_plain hne (mt (head?_encodeBytesOf_eq_star_iff d).mp hstar),
          map_cons_eq_ok_iff]
        exact (and_iff_right fun h => absurd h hstar).symm
    · have hback : b ^^^ 0x20 ^^^ 0x20 = b := by simp
      rw [encodeBytesOf_cons_of_escaped hb, decodeBytesOf_escape, hback, map_cons_eq_ok_iff]
      exact (and_iff_right fun _ => rfl).symm

end Sys2Proof.Machine
end

section
/-! SUPPORT. Checksums and the frames built with them: digits by value, the byte sum, the two checks of a checksum, and what
Validate says of a built frame (41_codec.md rules R143 to R147, R163, R164). -/
namespace Sys2Proof.Machine
open Sys2Proof.Safety

/-! ## Hex digits (30_encoding.md rule R96; 41_codec.md rule R144) -/

theorem lowerDigit_hexDigit : ∀ v < 16, LowerDigit v (hexDigit v) := by
  unfold LowerDigit
  decide

/-- A value has one lowercase digit. -/
theorem lowerDigit_iff {v : Nat} (hv : v < 16) (b : Byte) : LowerDigit v b ↔ b = hexDigit v := by
  refine ⟨fun h => BitVec.eq_of_toNat_eq ?_, fun h => h ▸ lowerDigit_hexDigit v hv⟩
  have := lowerDigit_hexDigit v hv
  unfold LowerDigit at *
  omega

/-- The digits of value v are the accepted bytes that HexVal maps to v. -/
theorem digitOf_iff (policy : HexCasePolicy) (v : Nat) (b : Byte) :
    DigitOf policy v b ↔ digitOk policy b = true ∧ hexVal b = v := by
  simp only [DigitOf, LowerDigit, digitOk, hexVal, isDecimalDigit, isLowerHex, isUpperHex, Bool.or_eq_true,
    Bool.and_eq_true, decide_eq_true_eq, bne_iff_ne]
  by_cases hp : policy = .lowerOnly
  · simp only [hp, ne_eq, not_true_eq_false, false_and, or_false]
    split_ifs <;> omega
  · simp only [hp, ne_eq, not_false_eq_true, true_and]
    split_ifs <;> omega

theorem exists_digitOf_iff (policy : HexCasePolicy) (b : Byte) :
    (∃ v, DigitOf policy v b) ↔ digitOk policy b = true := by
  simp [digitOf_iff]

/-! ## The byte sum and the checksum (rules R143, R163) -/

theorem byteSum_eq_sumMod256 (e : Bytes) : byteSum e = sumMod256 e := by
  induction e with
  | nil => rfl
  | cons b e ih =>
    rw [sumMod256, ← ih]
    simp [byteSum]

theorem byteSum_lt (e : Bytes) : byteSum e < 256 := Nat.mod_lt _ (by decide)

theorem isChecksum_iff (e : Bytes) (hi lo : Byte) : IsChecksum e hi lo ↔ [hi, lo] = checksum e := by
  have := byteSum_lt e
  rw [IsChecksum, ← byteSum_eq_sumMod256, lowerDigit_iff (by omega), lowerDigit_iff (by omega)]
  simp [checksum]

theorem exists_isChecksum (e : Bytes) : ∃ hi lo, checksum e = [hi, lo] ∧ IsChecksum e hi lo :=
  ⟨_, _, rfl, (isChecksum_iff ..).mpr rfl⟩

theorem checksum_congr {e e' : Bytes} (h : byteSum e = byteSum e') : checksum e = checksum e' := by
  rw [checksum, checksum, h]

/-- Settles O27: the digits are those of the byte sum. -/
theorem checksumOutput : Obligations.ChecksumOutput := by
  refine ⟨fun e => ?_, rfl, fun e e' h => checksum_congr ?_, fun e e' h => checksum_congr ?_⟩
  · obtain ⟨hi, lo, he, hhi, hlo⟩ := exists_isChecksum e
    exact ⟨hi, lo, he, ⟨_, hhi⟩, ⟨_, hlo⟩⟩
  · rw [byteSum_eq_sumMod256, h, byteSum_eq_sumMod256]
  · rw [byteSum, (h.map _).sum_eq, byteSum]

/-! ## The checks of a checksum (rule R144) -/

theorem ckSyntaxOk_pair_iff (policy : HexCasePolicy) (c0 c1 : Byte) :
    ckSyntaxOk policy [c0, c1] = true ↔ (∃ v, DigitOf policy v c0) ∧ ∃ v, DigitOf policy v c1 := by
  simp [ckSyntaxOk, exists_digitOf_iff]

theorem exists_pair_of_ckSyntaxOk {policy : HexCasePolicy} {ck : Bytes} (h : ckSyntaxOk policy ck = true) :
    ∃ c0 c1, ck = [c0, c1] := by
  simp only [ckSyntaxOk, Bool.and_eq_true, beq_iff_eq, List.length_eq_two] at h
  exact h.1

theorem hexVal_lt (b : Byte) : hexVal b < 16 := by
  simp only [hexVal, isDecimalDigit, isLowerHex, isUpperHex, Bool.and_eq_true, decide_eq_true_eq]
  split_ifs <;> omega

/-- For two digits CkSyntaxOK accepts, CkEqual is the acceptance of rule R144. -/
theorem ckEqual_iff {policy : HexCasePolicy} {c0 c1 : Byte} (h : ckSyntaxOk policy [c0, c1] = true) (e : Bytes) :
    ckEqual policy [c0, c1] e = true ↔ AcceptedChecksum policy e c0 c1 := by
  obtain ⟨h0, h1⟩ : digitOk policy c0 = true ∧ digitOk policy c1 = true := by simpa [ckSyntaxOk] using h
  cases policy
  case lowerOnly | anyCaseText => simp [ckEqual, AcceptedChecksum, isChecksum_iff]
  case anyCaseNumeric =>
    have := hexVal_lt c1
    have := byteSum_lt e
    simp only [ckEqual, AcceptedChecksum, digitOf_iff, h0, h1, ← byteSum_eq_sumMod256, List.getD_cons_zero,
      List.getD_cons_succ, beq_iff_eq, true_and]
    omega

/-- The computed checksum passes its own checks under every policy. -/
theorem checksum_accepted (policy : HexCasePolicy) (e : Bytes) :
    ckSyntaxOk policy (checksum e) = true ∧ ckEqual policy (checksum e) e = true := by
  obtain ⟨hi, lo, he, hck⟩ := exists_isChecksum e
  have hhi : DigitOf policy _ hi := .inl hck.1
  have hlo : DigitOf policy _ lo := .inl hck.2
  rw [he]
  have hsyntax := (ckSyntaxOk_pair_iff policy hi lo).mpr ⟨⟨_, hhi⟩, ⟨_, hlo⟩⟩
  refine ⟨hsyntax, (ckEqual_iff hsyntax e).mpr ?_⟩
  cases policy
  exacts [hck, hck, ⟨hhi, hlo⟩]

/-! ## Built frames (rules R145, R164) -/

/-- What is left for Validate to check of a built frame is its checksum. -/
theorem validateOf_built (policy : HexCasePolicy) (d : Bytes) (c0 c1 : Byte) :
    validateOf policy (0x24 :: encodeBytesOf d ++ [0x23, c0, c1]) =
      if ckSyntaxOk policy [c0, c1] = false then some .pktCkSyntax
      else if ckEqual policy [c0, c1] (encodeBytesOf d) = false then some .pktCkMismatch else none := by
  rw [validateOf_parts, if_neg (not_not.mpr rfl), if_neg (not_not.mpr rfl),
    if_neg (not_or.mpr ⟨sop_not_mem_encodeBytesOf d, eop_not_mem_encodeBytesOf d⟩)]

/-- Settles O28: the encoded payload holds no framing byte, and the checksum passes its own checks. -/
theorem builtFramesValidate : Obligations.BuiltFramesValidate := by
  refine fun policy d => ⟨?_, fun ck hck => ?_⟩
  · obtain ⟨hi, lo, he, hhi, hlo⟩ := exists_isChecksum (encodeBytesOf d)
    obtain ⟨hsyntax, hequal⟩ := checksum_accepted policy (encodeBytesOf d)
    refine ⟨encodeBytesOf d, hi, lo, congrArg (Except.ok <| _ :: _ ++ _ :: ·) he, ?_, sop_not_mem_encodeBytesOf d,
      eop_not_mem_encodeBytesOf d, ⟨_, hhi⟩, ⟨_, hlo⟩⟩
    rw [validateOf_built, ← he, hsyntax, hequal]
    rfl
  · obtain ⟨c0, c1, rfl⟩ := exists_pair_of_ckSyntaxOk hck
    refine ⟨_, if_pos hck, (validateOf_built policy d c0 c1).trans ?_⟩
    rw [hck]
    cases ckEqual policy [c0, c1] (encodeBytesOf d) <;> rfl

end Sys2Proof.Machine
end

section
/-! SUPPORT. The codec commands' own results (41_codec.md rules R150 to R155): after the IN_LEN check, each ends as its pure
function says of the operand. -/
namespace Sys2Proof.Machine
open Sys2Proof.Safety

/-! ## The ends they share -/

theorem failed_requireInLen {k : State → State} {s : State} (h : ¬ InLenOk s) : Failed (requireInLen k s) 0x61 0 :=
  requireInLen_of_not_ok h ▸ failed_fail .inLenRange 0 s

theorem failed_complete {out : Bytes} {r : Word} {s : State} (h : s.params.outCap < out.length) :
    Failed (complete out r s) 0x62 0 := complete_of_lt h ▸ failed_fail .outOverflow 0 s

theorem length_inBytes (s : State) : (inBytes s).length = s.inLen.toNat := bytesAt_length ..

/-! ## ENCODE_PAYLOAD, DECODE_PAYLOAD, COMPUTE_CHECKSUM -/

/-- Settles O15: the command completes with Encode of the operand. -/
theorem encodePayloadResult : Obligations.EncodePayloadResult := by
  refine fun s hp => ⟨_, rfl, failed_requireInLen, fun h hfit => ?_, fun h hlong => ?_⟩
  all_goals rw [requireInLen_of_ok h, encodeBytesOf_eq_flatMap]
  · obtain ⟨hcompleted, hframe⟩ := completed_complete (r := 0) hp hfit
    exact ⟨hcompleted, hcompleted.outLen ▸ hframe⟩
  · exact failed_complete hlong

/-- Settles O16: the command ends with Decode's answer, which is the grammar's. -/
theorem decodePayloadResult : Obligations.DecodePayloadResult := by
  refine fun s hp => ⟨_, rfl, failed_requireInLen, fun h => ?_⟩
  rw [requireInLen_of_ok h]
  refine ⟨fun out hd hfit => ?_, fun out hd hlong => ?_, fun code hm => ?_⟩
  · rw [decodeBytesOf_of_decodes hd]
    exact completed_complete hp hfit
  · rw [decodeBytesOf_of_decodes hd]
    exact failed_complete hlong
  · obtain ⟨k, hk, rfl⟩ := decodeBytesOf_of_malformed hm
    rw [hk]
    exact failed_fail k 0 s

/-- Settles O18: the two digits of the checksum fit in OUT under well-formed parameters. -/
theorem computeChecksumResult : Obligations.ComputeChecksumResult := by
  intro s hp
  obtain ⟨hi, lo, he, hck⟩ := exists_isChecksum (inBytes s)
  obtain ⟨-, hcap, -⟩ := wf_facts hp
  have hfit : [hi, lo].length ≤ s.params.outCap := Nat.le_of_add_left_le hcap
  refine ⟨_, hi, lo, rfl, hck, failed_requireInLen, fun h => ?_⟩
  rw [requireInLen_of_ok h, he]
  exact completed_complete hp hfit

/-! ## CREATE_PACKET -/

theorem ckSyntaxOk_arg_iff (s : State) :
    ckSyntaxOk s.params.hexCase [ck0Of s.arg, ck1Of s.arg] = true ↔ ArgIsChecksum s := ckSyntaxOk_pair_iff ..

theorem createPacketOf_computed {d : Bytes} {hi lo : Byte} (h : checksum (d.flatMap escaped) = [hi, lo]) (s : State) :
    createPacketOf s.params.hexCase d (customChecksum false s) = .ok (0x24 :: d.flatMap escaped ++ [0x23, hi, lo]) := by
  rw [← h, ← encodeBytesOf_eq_flatMap]
  rfl

theorem createPacketOf_custom {s : State} (h : ArgIsChecksum s) (d : Bytes) :
    createPacketOf s.params.hexCase d (customChecksum true s) =
      .ok (0x24 :: d.flatMap escaped ++ [0x23, s.arg.extractLsb' 0 8, s.arg.extractLsb' 8 8]) := by
  rw [← encodeBytesOf_eq_flatMap]
  exact if_pos ((ckSyntaxOk_arg_iff s).mpr h)

theorem createPacketOf_bad_custom {s : State} (h : ¬ ArgIsChecksum s) (d : Bytes) :
    createPacketOf s.params.hexCase d (customChecksum true s) = .error .badCustomChecksum :=
  if_neg (mt (ckSyntaxOk_arg_iff s).mp h)

theorem length_frame (e : Bytes) (c0 c1 : Byte) : (0x24 :: e ++ [0x23, c0, c1]).length = e.length + 4 := by simp

/-- A frame completes where it fits in OUT and fails where it does not. -/
theorem completeWith_frame {s : State} (hp : s.params.wf = true) {r : Except Err Bytes} {e : Bytes} {c0 c1 : Byte}
    (hr : r = .ok (0x24 :: e ++ [0x23, c0, c1])) :
    (e.length + 4 ≤ s.params.outCap → Completed (completeWith r s) (0x24 :: e ++ [0x23, c0, c1]) 0 ∧
      SameOutsideOut s (completeWith r s) (e.length + 4)) ∧
    (s.params.outCap < e.length + 4 → Failed (completeWith r s) 0x62 0) := by
  rw [hr, ← length_frame e c0 c1]
  exact ⟨completed_complete hp, failed_complete⟩

/-- Settles O19: the frame of each form, and the refusal of a bad ARG. -/
theorem createPacketResult : Obligations.CreatePacketResult := by
  intro s hp
  constructor
  · obtain ⟨hi, lo, he, hck⟩ := exists_isChecksum ((inBytes s).flatMap escaped)
    have hframe := completeWith_frame hp (createPacketOf_computed he s)
    exact ⟨_, hi, lo, rfl, hck, failed_requireInLen, fun h => requireInLen_of_ok h ▸ hframe.1,
      fun h => requireInLen_of_ok h ▸ hframe.2⟩
  · refine ⟨_, rfl, failed_requireInLen, fun h hck => ?_, fun h hck => ?_, fun h hck => ?_⟩
    all_goals rw [requireInLen_of_ok h]
    · exact (completeWith_frame hp (createPacketOf_custom hck _)).1
    · exact (completeWith_frame hp (createPacketOf_custom hck _)).2
    · rw [createPacketOf_bad_custom hck]
      exact failed_fail .badCustomChecksum 0 s

/-! ## SPLIT_PACKET -/

theorem toNat_append_byte {n : Nat} (x : BitVec n) (b : Byte) : (x ++ b).toNat = 2 ^ 8 * x.toNat + b.toNat := by
  rw [BitVec.toNat_append, ← Nat.shiftLeft_add_eq_or_of_lt b.isLt, Nat.shiftLeft_eq, mul_comm]

/-- RESULT holds the four bytes from the low one up (30_encoding.md rule R83). -/
theorem splitResult_eq_ofNat (first hash c0 c1 : Byte) : splitResult first hash c0 c1 =
    BitVec.ofNat 32 (first.toNat + 2 ^ 8 * hash.toNat + 2 ^ 16 * c0.toNat + 2 ^ 24 * c1.toNat) := by
  have hsum : (splitResult first hash c0 c1).toNat =
      2 ^ 8 * (2 ^ 8 * (2 ^ 8 * c1.toNat + c0.toNat) + hash.toNat) + first.toNat := by
    rw [← toNat_append_byte, ← toNat_append_byte, ← toNat_append_byte]
    rfl
  apply BitVec.eq_of_toNat_eq
  rw [hsum, BitVec.toNat_ofNat]
  omega

/-- Settles O20: the operand is cut into its parts by position. -/
theorem splitPacketResult : Obligations.SplitPacketResult := by
  refine fun s hp => ⟨_, rfl, failed_requireInLen, fun h hshort => ?_, fun h first payload hash c0 c1 hin => ?_⟩
  all_goals
    rw [requireInLen_of_ok h]
    dsimp only
  · rw [if_pos (length_inBytes s ▸ hshort)]
    exact failed_fail .splitTooShort 0 s
  · rw [if_neg (by simp [hin]), hin, splitOf_parts, ← splitResult_eq_ofNat]
    exact ⟨completed_complete hp, failed_complete⟩

/-! ## VALIDATE_PACKET -/

theorem validateOf_short {p : Bytes} (policy : HexCasePolicy) (h : p.length < 4) :
    validateOf policy p = some .pktTooShort := if_pos h

/-- The command fails with the code of Validate's first failing check. -/
theorem failed_of_validateOf {s t : State} {e : Err} (ht : exec .validatePacket s = .next t) (h : InLenOk s)
    (hv : validateOf s.params.hexCase (inBytes s) = some e) : Failed t e.code 0 := by
  cases ht
  rw [requireInLen_of_ok h, hv]
  exact failed_fail e 0 s

theorem completed_of_validateOf {s t : State} (ht : exec .validatePacket s = .next t) (h : InLenOk s)
    (hv : validateOf s.params.hexCase (inBytes s) = none) (hp : s.params.wf = true) :
    Completed t [] 0 ∧ SameOutsideOut s t 0 := by
  cases ht
  rw [requireInLen_of_ok h, hv]
  exact completed_complete hp (Nat.zero_le _)

/-- Settles O21: Validate of the operand by its parts, check after check. -/
theorem validatePacketResult : Obligations.ValidatePacketResult := by
  intro s hp
  obtain ⟨t, ht⟩ := exec_answers .validatePacket s
  refine ⟨t, ht, fun h => ?_, fun h hshort => ?_, fun h first payload hash c0 c1 hin => ?_⟩
  · cases ht
    exact failed_requireInLen h
  · exact failed_of_validateOf ht h (validateOf_short _ (length_inBytes s ▸ hshort))
  have hv := hin ▸ validateOf_parts s.params.hexCase first hash c0 c1 payload
  refine ⟨fun hfirst => ?_, fun hfirst hhash => ?_, fun hfirst hhash hbody => ?_, fun hfirst hhash hsop heop =>
    ⟨fun hsyntax => ?_, fun h0 h1 => ?_⟩⟩
  · exact failed_of_validateOf ht h (hv.trans (if_pos hfirst))
  all_goals rw [if_neg (not_not.mpr hfirst)] at hv
  · exact failed_of_validateOf ht h (hv.trans (if_pos hhash))
  all_goals rw [if_neg (not_not.mpr hhash)] at hv
  · exact failed_of_validateOf ht h (hv.trans (if_pos hbody))
  all_goals rw [if_neg (not_or.mpr ⟨hsop, heop⟩)] at hv
  · rw [← ckSyntaxOk_pair_iff, Bool.not_eq_true] at hsyntax
    exact failed_of_validateOf ht h (hv.trans (if_pos hsyntax))
  have hsyntax := (ckSyntaxOk_pair_iff ..).mpr ⟨h0, h1⟩
  rw [if_neg (by simp [hsyntax])] at hv
  refine ⟨fun hbad => ?_, fun hgood => ?_⟩
  · rw [← ckEqual_iff hsyntax, Bool.not_eq_true] at hbad
    exact failed_of_validateOf ht h (hv.trans (if_pos hbad))
  · rw [← ckEqual_iff hsyntax] at hgood
    exact completed_of_validateOf ht h (hv.trans (if_neg (by simp [hgood]))) hp

end Sys2Proof.Machine
end

section
/-! SUPPORT. The environment's events, each in its own wait (42_rx_path.md rules R195, R198, R204), and what a chunk's time
can be (rule R203). -/
namespace Sys2Proof.Machine
open Sys2Proof.Safety

/-! ## Which wait an event ends (rule R204) -/

/-- An event happens only in the wait that lists it, and only while that wait is unanswered. -/
theorem endsTheWait_of_takeEvent {e : Event} {s t : State} (h : takeEvent e s = .next t) : EndsTheWait s.phase e := by
  unfold takeEvent at h
  split at h
  next hp => exact hp
  next hp => exact hp
  next hp => exact ⟨_, _, hp⟩
  next hp => exact ⟨_, _, hp⟩
  next hp => exact ⟨_, _, _, hp⟩
  next hp => exact ⟨_, _, _, hp⟩
  next hp => exact ⟨_, _, _, hp⟩
  next hp => exact ⟨_, _, _, hp⟩
  next => cases h

/-- What is enabled on a condition answers with its state exactly then. -/
theorem next_or_refused_iff {P : Prop} [Decidable P] {u t : State} {r : Refusal} :
    (if P then .next u else .refused r : Host.Outcome State Fault Refusal) = .next t ↔ P ∧ t = u := by
  split
  next hP => exact ⟨fun h => ⟨hP, by cases h; rfl⟩, fun ⟨_, e⟩ => by rw [e]⟩
  next hP => exact ⟨nofun, fun ⟨h, _⟩ => absurd h hP⟩

/-! ## A transmit's events (rule R198) -/

theorem takeEvent_txFail {s : State} {packet : Bytes} {pt : TxPoint} (hp : s.phase = .sending packet pt none) (n : Nat) :
    takeEvent (.txFail n) s =
      if n ≤ packet.length then
        .next { s with phase := .sending packet pt (some .failed), peerGot := s.peerGot ++ packet.take n }
      else .refused .eventNotEnabled := by
  simp only [takeEvent, hp]

/-- Settles O40: the transmit's own events, and the wait that each event ends. -/
theorem transmitEvents : Obligations.TransmitEvents := by
  refine ⟨fun s packet pt hp => ⟨?_, fun n hn => ?_, fun n hn => ?_⟩, fun _ _ _ => endsTheWait_of_takeEvent⟩
  · simp only [takeEvent, hp]
  · rw [takeEvent_txFail hp, if_pos hn]
  · rw [takeEvent_txFail hp, if_neg (by omega)]

/-! ## A refill's events (rule R195) -/

theorem chunkEnabled_iff (s : State) (t0 w : Int) (n : Nat) :
    chunkEnabled s t0 w n = true ↔
      1 ≤ n ∧ n ≤ s.params.rxChunkMax ∧ n ≤ s.rxStream.length ∧ t0 ≤ s.now ∧ s.now ≤ t0 + w := by
  simp only [chunkEnabled, Bool.and_eq_true, decide_eq_true_eq, and_assoc]

section
variable {s : State} {pt : ReadPoint} {t0 w : Int} (hp : s.phase = .refilling pt t0 w none)
include hp

theorem takeEvent_chunk_iff (n : Nat) (t : State) :
    takeEvent (.chunk n) s = .next t ↔
      (1 ≤ n ∧ n ≤ s.params.rxChunkMax ∧ n ≤ s.rxStream.length ∧ t0 ≤ s.now ∧ s.now ≤ t0 + w) ∧
        t = { deliverChunk n s with phase := .refilling pt t0 w (some .data) } := by
  rw [← chunkEnabled_iff, ← next_or_refused_iff (r := .eventNotEnabled)]
  simp only [takeEvent, hp]

theorem takeEvent_expire_iff (t : State) :
    takeEvent .expire s = .next t ↔ t0 + w ≤ s.now ∧ t = { s with phase := .refilling pt t0 w (some .expired) } := by
  rw [← next_or_refused_iff (r := .eventNotEnabled)]
  simp only [takeEvent, hp]

theorem takeEvent_endOfStream_iff (t : State) :
    takeEvent .endOfStream s = .next t ↔
      (s.peerClosed = true ∧ s.rxStream = []) ∧ t = { s with phase := .refilling pt t0 w (some .endOfStream) } := by
  rw [← List.isEmpty_iff, ← Bool.and_eq_true, ← next_or_refused_iff (r := .eventNotEnabled)]
  simp only [takeEvent, hp]

/-- The events that rule R204 does not list for a refill do not happen in one. -/
theorem takeEvent_ne_next_of_refilling {e : Event} (he : ¬ EndsTheWait (.refilling pt t0 w none) e) (t : State) :
    takeEvent e s ≠ .next t := fun h => he (hp ▸ endsTheWait_of_takeEvent h)

end

/-- Settles O42: the conditions of the refill's four events, and no event of another wait. -/
theorem refillEvents : Obligations.RefillEvents := by
  intro s pt t0 w hp
  refine ⟨takeEvent_chunk_iff hp, takeEvent_expire_iff hp, by simp only [takeEvent, hp],
    fun t => (takeEvent_endOfStream_iff hp t).trans and_assoc, fun t => ⟨?_, ?_, ?_, fun n => ?_⟩⟩
  all_goals exact takeEvent_ne_next_of_refilling hp (by simp [EndsTheWait]) t

/-! ## How late a chunk can be (rule R203) -/

/-- A refill's wait ends before one unit is past the deadline, and at the deadline when a unit remained at its start. -/
theorem waitOk_end {s : State} {t0 w : Int} (h : WaitOk s t0 w) (hu : 1 ≤ s.params.ticksPerUnit) :
    t0 + w < s.tArm + (s.cfgTimeout.toNat : Int) + (s.params.ticksPerUnit : Int) ∧
      ((s.params.ticksPerUnit : Int) ≤ (s.cfgTimeout.toNat : Int) - (t0 - s.tArm) →
        t0 + w ≤ s.tArm + (s.cfgTimeout.toNat : Int)) := by
  obtain ⟨hr, hw, -, -⟩ := h
  split at hw <;> omega

/-- Settles O44: a chunk comes within its wait, and the wait has a bound past the deadline. -/
theorem chunkOverrunBound : Obligations.ChunkOverrunBound := by
  intro s t n h ht
  obtain ⟨pt, t0, w, hp⟩ := endsTheWait_of_takeEvent ht
  obtain ⟨⟨-, -, -, -, hnow⟩, rfl⟩ := (takeEvent_chunk_iff hp n t).mp ht
  obtain ⟨-, -, -, hu, -⟩ := wf_facts h.params
  obtain ⟨-, -, hwait, -, -⟩ := (phaseOk_refilling_iff hp).mp h.phase
  obtain ⟨hunit, hdeadline⟩ := waitOk_end hwait hu
  refine ⟨hnow.trans_lt hunit, fun pt' t0' w' hp' hr => ?_⟩
  obtain ⟨rfl, rfl, rfl, -⟩ : pt = pt' ∧ t0 = t0' ∧ w = w' ∧ True := by simpa [hp] using hp'
  exact hnow.trans (hdeadline hr)

/-! ## The time source (rule R190) -/

/-- A tick moves `now` forward, and no other turn moves it. -/
theorem turnEffect_now {s t : State} {a : Turn} (e : TurnEffect s a t) :
    t.now = s.now ∨ ∃ n, a = .tick n ∧ t.now = s.now + (n : Int) := by
  cases e with
  | block e => exact .inl (sameFixed_blockEffect e).now
  | read e =>
    obtain ⟨_, _, _, rfl, -⟩ := e
    exact .inl rfl
  | write e =>
    cases e with
    | abort => exact .inl (sameFixed_abort s).now
    | issue | arg | inLen | bytes => exact .inl rfl
  | tick n => exact .inr ⟨n, rfl, rfl⟩
  | peerSend | peerClose => exact .inl rfl
  | event e => exact .inl (sameFixed_eventEffect e).now

theorem step_now {s t : State} (h : step s = .next t) :
    t.now = s.now ∨ ∃ n rest, s.agenda = .tick n :: rest ∧ t.now = s.now + (n : Int) := by
  rcases turnEffect_of_step h with ⟨-, ⟨e⟩⟩ | ⟨a, rest, ha, e⟩
  · exact .inl (sameFixed_blockEffect e).now
  · exact (turnEffect_now e).imp id fun ⟨n, hn, hnow⟩ => ⟨n, rest, hn ▸ ha, hnow⟩

/-- Settles O55: a step leaves `now` or moves it forward by the ticks of its turn. -/
theorem timeNeverDecreases : Obligations.TimeNeverDecreases := by
  intro s t h
  rcases step_now h with hnow | ⟨n, rest, ha, hnow⟩
  · exact ⟨hnow.ge, fun _ => hnow⟩
  · exact ⟨by omega, fun hne => absurd ha (hne n rest)⟩

end Sys2Proof.Machine
end

section
/-! SUPPORT. Refill's wait bound (42_rx_path.md rule R193), and how a refill that brought no bytes ends the command that
reads (rules R195, R196; 44_packet_exchange.md rules R241, R252). -/
namespace Sys2Proof.Machine
open Sys2Proof.Safety

/-! ## A failed read -/

theorem failed_readFail (pt : ReadPoint) (e : Err) (s : State) : Failed (readFail pt e s) e.code 0 := by
  cases pt with
  | ack => exact failed_fail e 0 s
  | scan pt => exact failed_scanFail e 0 s

/-- What a failed read does to RXBUF and ACC: an ACK wait keeps RXBUF, a scan drops ACC and draws RXBUF anew. -/
theorem readFail_buffers (pt : ReadPoint) (e : Err) (s : State) :
    (pt = .ack → (readFail pt e s).rxBuf = s.rxBuf) ∧ (pt ≠ .ack → (readFail pt e s).acc = []) ∧
      (s.rxBuf.length ≤ s.params.rxChunkMax → (readFail pt e s).rxBuf.length ≤ s.params.rxChunkMax) := by
  cases pt with
  | ack => exact ⟨fun _ => rfl, fun hne => absurd rfl hne, id⟩
  | scan pt => exact ⟨nofun, fun _ => rfl, fun _ => scanFail_rxBuf_length e 0 s⟩

/-! ## The wait bound (rule R193) -/

/-- Settles O41: Refill's two ends, the wait with its bound rounded up or not. The rule's r is `remaining s`. -/
theorem refillBound : Obligations.RefillBound := by
  intro s pt
  change (remaining s ≤ 0 → _) ∧ (0 < remaining s → remaining s < _ → _) ∧ (0 < remaining s → _ ≤ remaining s → _)
  rcases refill_cases pt s with ⟨hr, e⟩ | ⟨hr, e⟩ <;> rw [e]
  · exact ⟨fun _ => failed_readFail pt .deadlineExpired s, fun h => absurd h (by omega), fun h => absurd h (by omega)⟩
  · exact ⟨fun h => absurd h (by omega), fun _ hlt => by rw [if_pos hlt], fun _ hle => by rw [if_neg (by omega)]; rfl⟩

/-! ## The end of a refill without bytes (rules R195, R196) -/

theorem remaining_nonpos_iff (s : State) : remaining s ≤ 0 ↔ s.tArm + (s.cfgTimeout.toNat : Int) ≤ s.now := by
  unfold remaining
  omega

theorem afterRefill_of_transportError {s : State} (h : s.params.eof = .transportError) (k : State → State)
    (pt : ReadPoint) : afterRefill k pt (some .endOfStream) s = readFail pt .endOfStream s := by
  simp only [afterRefill, h]

theorem afterRefill_of_timeoutAtDeadline {s : State} (h : s.params.eof = .timeoutAtDeadline) (k : State → State)
    (pt : ReadPoint) :
    afterRefill k pt (some .endOfStream) s = if remaining s ≤ 0 then readFail pt .deadlineExpired s else s := by
  simp only [afterRefill, h]

/-- The commands that read, each with its own reader: an ACK wait or a frame scan. -/
def ReadsWith (i : Instr) (pt : ReadPoint) : Prop :=
  (pt = .ack ∧ (i = .checkAck ∨ ∃ ck chk, i = .sendPacket ck chk)) ∨
    ((∃ p, pt = .scan p) ∧ (i = .recvAndDecode ∨ ∃ v, i = .recvPacket v))

section
variable {i : Instr} {pt : ReadPoint} (hi : ReadsWith i pt)
include hi

/-- In its refill a command that reads does what the refill's answer says. -/
theorem exec_of_refilling {s : State} {t0 w : Int} {answer : Option RxAnswer}
    (hp : s.phase = .refilling pt t0 w answer) : ∃ k, exec i s = .next (afterRefill k pt answer s) := by
  rcases hi with ⟨rfl, rfl | ⟨ck, chk, rfl⟩⟩ | ⟨⟨p, rfl⟩, rfl | ⟨v, rfl⟩⟩
  · exact ⟨ackByte, by simp only [exec, execCheckAck, hp]⟩
  · exact ⟨ackByte, by simp only [exec, execSendPacket, hp]⟩
  · exact ⟨scanFrom (validateAndAck deliverDecoded) p, by simp only [exec, execRecvAndDecode, hp]⟩
  · exact ⟨scanFrom (recvPacketFrame v) p, by simp only [exec, execRecvPacket, hp]⟩

theorem writesOf_reader : (writesOf i).link = false ∧ (writesOf i).ackMode = false ∧ (writesOf i).transport = false := by
  rcases hi with ⟨-, rfl | ⟨ck, chk, rfl⟩⟩ | ⟨-, rfl | ⟨v, rfl⟩⟩ <;> exact ⟨rfl, rfl, rfl⟩

end

/-- Without bytes a refill's answer leaves the state as it is or fails the read. -/
theorem afterRefill_noData {answer : RxAnswer} (ha : answer ≠ .data) (k : State → State) (pt : ReadPoint) (s : State) :
    afterRefill k pt (some answer) s = s ∨ ∃ e, afterRefill k pt (some answer) s = readFail pt e s := by
  rcases afterRefill_cases k pt (some answer) s with ⟨h, -⟩ | ⟨h, -⟩ | ⟨e, h, -⟩
  exacts [.inl h, absurd (Option.some.inj h) ha, .inr ⟨e, h⟩]

/-- Settles O43: each answer without bytes fails the read with its own code, or leaves the wait as it is. -/
theorem failedRefillEndsTheCommand : Obligations.FailedRefillEndsTheCommand := by
  intro s i pt t0 w hi
  refine ⟨fun hp => ?_, fun answer hp => ?_⟩ <;> obtain ⟨k, hk⟩ := exec_of_refilling hi hp
  · exact hk
  refine ⟨_, hk, ?_, ?_, ?_, ?_, fun ha => ?_⟩
  · rintro rfl
    exact failed_readFail pt .waitExpired s
  · rintro rfl
    exact failed_readFail pt .ioError s
  · rintro rfl heof
    rw [afterRefill_of_transportError heof]
    exact failed_readFail pt .endOfStream s
  · rintro rfl heof
    rw [afterRefill_of_timeoutAtDeadline heof, ← not_le, ← remaining_nonpos_iff]
    exact ⟨fun hr => if_pos hr ▸ failed_readFail pt .deadlineExpired s, fun hr => if_neg hr⟩
  · have leaves := (stepLeaves_exec hk).toLeaves
    obtain ⟨hlink, hmode, htransport⟩ := writesOf_reader hi
    refine ⟨leaves.link hlink, leaves.ackMode hmode, leaves.fixed, leaves.transport htransport, ?_⟩
    rcases afterRefill_noData ha k pt s with h | ⟨e, h⟩ <;> rw [h]
    · exact ⟨fun _ => rfl, fun _ hne => absurd rfl hne, id⟩
    · obtain ⟨hbuf, hacc, hlen⟩ := readFail_buffers pt e s
      exact ⟨hbuf, fun _ _ => hacc, hlen⟩

end Sys2Proof.Machine
end

section
/-! SUPPORT. Link control (43_link_control.md): CONNECT and its open, DISCONNECT, SET_ACK_MODE, the abort by a DISCONNECT
word, and the check for the link that every send and receive makes. -/
namespace Sys2Proof.Machine
open Sys2Proof.Safety

/-! ## Three turns of a run (log entry 1) -/

theorem run_succ_of_step {M : Host.Core} {s t : M.State} (h : M.step s = .next t) (k : Nat) :
    M.run (k + 1) s = M.run k t := by
  rw [Host.Core.run, h]

/-- Where the block's turn is next, the step is the command's. -/
theorem step_of_block_turn {s : State} {i : Instr} {rest : List Turn} (ha : s.agenda = .block :: rest)
    (hi : s.phase ≠ .idle) (hd : s.phase ≠ .dispatch) (hw : decodeWord s.curCmd = .ok i) :
    step s = exec i { s with agenda := rest } :=
  (step_of_turn ha).trans (blockStep_of_command (s := { s with agenda := rest }) hi hd hw)

/-- An event leaves the command in progress, past dispatch. -/
theorem phase_of_eventEffect {s t : State} (e : EventEffect s t) : t.phase ≠ .idle ∧ t.phase ≠ .dispatch := by
  cases e <;> exact ⟨nofun, nofun⟩

/-- A command with one wait, from its start to its end: up to the wait, the event that ends it, and on from there. -/
theorem run_block_event_block {s u v t : State} {i : Instr} {e : Event} (ha : s.agenda = [.block, .event e, .block])
    (hp : s.phase = .start) (hw : decodeWord s.curCmd = .ok i)
    (hstart : exec i { s with agenda := [.event e, .block] } = .next u)
    (hevent : takeEvent e { u with agenda := [.block] } = .next v) (hend : exec i { v with agenda := [] } = .next t) :
    core.run 3 s = .next t := by
  have hu := (stepLeaves_exec hstart).fixed
  have he := eventEffect_of_takeEvent hevent
  have hv := sameFixed_eventEffect he
  obtain ⟨hidle, hdispatch⟩ := phase_of_eventEffect he
  have hwv : decodeWord v.curCmd = .ok i := by rw [hv.curCmd, hu.curCmd, hw]
  have step1 : step s = .next u :=
    (step_of_block_turn ha (by simp [hp]) (by simp [hp]) hw).trans hstart
  have step2 : step u = .next v := (step_of_turn hu.agenda).trans hevent
  have step3 : step v = .next t := (step_of_block_turn hv.agenda hidle hdispatch hwv).trans hend
  calc core.run 3 s = core.run 2 u := run_succ_of_step (M := core) step1 2
    _ = core.run 1 v := run_succ_of_step (M := core) step2 1
    _ = core.run 0 t := run_succ_of_step (M := core) step3 0

/-! ## CONNECT (rule R220) -/

theorem exec_connect_of_link {s : State} (hp : s.phase = .start) (hl : s.link = true) :
    exec .connect s = .next (fail .alreadyConnected 0 s) := by
  simp [exec, execConnect, hp, hl]

theorem exec_connect_of_no_link {s : State} (hp : s.phase = .start) (hl : s.link = false) :
    exec .connect s = .next { s with phase := .opening none } := by
  simp [exec, execConnect, hp, hl]

theorem exec_connect_unanswered {s : State} (hp : s.phase = .opening none) : exec .connect s = .next s := by
  simp only [exec, execConnect, hp]

theorem exec_connect_failed {s : State} (hp : s.phase = .opening (some .failed)) :
    exec .connect s = .next (fail .connectFailed 0 s) := by
  simp only [exec, execConnect, hp]

theorem exec_connect_opened {s : State} (hp : s.phase = .opening (some .opened)) :
    exec .connect s = .next (finish [] 0 { s with link := true, ackMode := true, rxBuf := [] }) := by
  simp only [exec, execConnect, hp, complete_nil]

theorem takeEvent_opened {s : State} (hp : s.phase = .opening none) :
    takeEvent .opened s = .next { openTransport s with phase := .opening (some .opened) } := by
  simp only [takeEvent, hp]

theorem takeEvent_openFailed {s : State} (hp : s.phase = .opening none) :
    takeEvent .openFailed s = .next { s with phase := .opening (some .failed) } := by
  simp only [takeEvent, hp]

/-- Completion with no result writes no OUT byte. -/
theorem completed_finish_nil (s : State) : Completed (finish [] 0 s) [] 0 := completed_finish [] 0 s (by decide)

/-- Settles O29: what CONNECT does at its start and in each answer of its open. -/
theorem connectResult : Obligations.ConnectResult := by
  have failed (e : Err) (s : State) : Failed (fail e 0 s) e.code 0 ∧ SameLinkSide s (fail e 0 s) ∧
      SameTransport s (fail e 0 s) ∧ SameFixed s (fail e 0 s) :=
    ⟨failed_fail e 0 s, sameLinkSide_fail e 0 s, sameTransport_fail e 0 s, sameFixed_fail e 0 s⟩
  intro s _
  refine ⟨fun hp hl => ⟨_, exec_connect_of_link hp hl, failed _ s⟩, exec_connect_of_no_link,
    fun hp => ⟨exec_connect_unanswered hp, takeEvent_opened hp, takeEvent_openFailed hp⟩,
    fun hp => ⟨_, exec_connect_failed hp, failed _ s⟩, fun hp => ?_⟩
  have h := exec_connect_opened hp
  have leaves := (stepLeaves_exec h).toLeaves
  exact ⟨_, h, completed_finish_nil _, rfl, rfl, rfl, leaves.acc rfl, leaves.tArm rfl, leaves.transport rfl,
    leaves.fixed, sameOutsideOut_finish [] 0 _⟩

/-- Settles O30: the open's wait, Opened, and the completion. -/
theorem connectRunsToCompletion : Obligations.ConnectRunsToCompletion := by
  intro s _ hp hc hl ha
  have hw : decodeWord s.curCmd = .ok .connect := hc ▸ decodeWord_encode .connect
  exact ⟨_, run_block_event_block ha hp hw (exec_connect_of_no_link hp hl) (takeEvent_opened rfl)
    (exec_connect_opened rfl), completed_finish_nil _, rfl, rfl, rfl, rfl, rfl, rfl⟩

/-! ## DISCONNECT (rule R221) -/

theorem exec_disconnect_of_link {s : State} (hl : s.link = true) :
    exec .disconnect s = .next (finish [] 0 { closeTransport s with link := false, rxBuf := [] }) := by
  simp only [exec, execDisconnect, complete_nil, hl, if_true]

theorem exec_disconnect_of_no_link {s : State} (hl : s.link = false) :
    exec .disconnect s = .next (finish [] 0 { s with link := false, rxBuf := [] }) := by
  simp only [exec, execDisconnect, complete_nil, hl, Bool.false_eq_true, if_false]

/-- Settles O31: with the link the command closes the transport, without it the transport stays as it was. -/
theorem disconnectResult : Obligations.DisconnectResult := by
  intro s _
  cases hl : s.link with
  | true =>
    have h := exec_disconnect_of_link hl
    exact ⟨_, h, completed_finish_nil _, rfl, rfl, rfl, rfl, rfl, rfl, rfl, (stepLeaves_exec h).fixed,
      sameOutsideOut_finish [] 0 _, fun _ => ⟨rfl, rfl⟩, nofun, nofun⟩
  | false =>
    have h := exec_disconnect_of_no_link hl
    exact ⟨_, h, completed_finish_nil _, rfl, rfl, rfl, rfl, rfl, rfl, rfl, (stepLeaves_exec h).fixed,
      sameOutsideOut_finish [] 0 _, nofun, fun _ => { sameTransport_refl s with },
      fun _ hb => ⟨hl.symm, rfl, hb.symm, rfl, rfl⟩⟩

/-! ## SET_ACK_MODE (rule R223) -/

theorem exec_setAckMode_eq (enable : Bool) (s : State) :
    exec (.setAckMode enable) s = .next (finish [] 0 { s with ackMode := enable }) := by
  simp only [exec, execSetAckMode, complete_nil]

/-- Settles O32: ACK_MODE is the only element that the command writes. -/
theorem setAckModeResult : Obligations.SetAckModeResult := by
  intro s enable _
  have h := exec_setAckMode_eq enable s
  have leaves := (stepLeaves_exec h).toLeaves
  exact ⟨_, h, completed_finish_nil _, rfl, rfl, rfl, rfl, rfl, leaves.transport rfl, leaves.fixed,
    sameOutsideOut_finish [] 0 _⟩

/-! ## The abort (rule R222) -/

theorem abandonWait_peerGot_of_sending {s : State} {packet : Bytes} {pt : TxPoint}
    (hp : s.phase = .sending packet pt none) :
    (abandonWait s).peerGot = s.peerGot ++ packet.take (Config.freeLength s.draws) := by
  simp only [abandonWait, hp]

theorem abandonWait_of_not_sending {s : State} (hp : ∀ packet pt, s.phase ≠ .sending packet pt none) :
    abandonWait s = s := by
  unfold abandonWait
  split
  next h => exact absurd h (hp _ _)
  next => rfl

theorem abandonWait_txLog (s : State) : (abandonWait s).txLog = s.txLog := by
  unfold abandonWait
  split <;> rfl

theorem abandonWait_transportOpen (s : State) : (abandonWait s).transportOpen = s.transportOpen := by
  unfold abandonWait
  split <;> rfl

/-- The abort is a Fail with the transport closed; of the connection's record it keeps what abandoning the wait left. -/
theorem abort_transport (s : State) :
    (abort s).transportOpen = false ∧ (s.transportOpen = true → (abort s).rxStream = []) ∧
      (abort s).txLog = s.txLog ∧ (abort s).peerGot = (abandonWait s).peerGot := by
  rw [← abandonWait_transportOpen s, ← abandonWait_txLog s]
  unfold abort
  dsimp only
  split
  next => exact ⟨rfl, fun _ => rfl, rfl, rfl⟩
  next hclosed => exact ⟨by simpa using hclosed, fun hopen => absurd hopen hclosed, rfl, rfl⟩

theorem failed_abort (s : State) : Failed (abort s) 0x54 0 := failed_fail .aborted 0 _

theorem hostAccess_disconnect_of_busy {s : State} (hp : s.phase ≠ .idle) :
    hostAccess (.write 0 .w32 0x11) s =
      if (decodeWord s.curCmd).toOption.any abortable then .next (abort s) else .refused .busyWrite := by
  have hword : (0x11 : Word) = encode .disconnect := rfl
  refine (hostWrite_register .cmd _ s).trans ?_
  simp [writeReg, writeCmd, (busy_iff s).mpr hp, hword]

/-- Settles O13: in a command's course the word aborts one of rule R222's eight and is refused during any other. -/
theorem disconnectWordAborts : Obligations.DisconnectWordAborts := by
  intro s hp
  rw [hostAccess_disconnect_of_busy hp, ← abortable_decodeWord_iff]
  refine ⟨fun hw => ?_, fun hw => if_neg hw⟩
  have fixed := sameFixed_abort s
  obtain ⟨hopen, hstream, hlog, hgot⟩ := abort_transport s
  refine ⟨_, if_pos hw, failed_abort s, rfl, rfl, rfl, hopen, hstream, fixed.curCmd, abort_ackMode s, hlog, fixed.arg,
    fixed.inLen, fixed.inBytes, fun packet pt hs => ⟨_, hgot.trans (abandonWait_peerGot_of_sending hs)⟩, fun hs => ?_⟩
  rw [hgot, abandonWait_of_not_sending hs]

/-! ## The link a command needs (rule R224) -/

theorem exec_checkAck_start {s : State} (hp : s.phase = .start) :
    exec .checkAck s = .next (requireLink ackWait s) := by
  simp only [exec, execCheckAck, hp]

theorem sendByte_start {s : State} (hp : s.phase = .start) (b : Byte) :
    sendByte b s = requireLink (beginTx [b] .command) s := by
  simp only [sendByte, hp]

theorem exec_recvPacket_start {s : State} (hp : s.phase = .start) (v : Bool) :
    exec (.recvPacket v) s = .next (requireLink (recvFrame (recvPacketFrame v)) s) := by
  simp only [exec, execRecvPacket, hp]

theorem exec_recvAndDecode_start {s : State} (hp : s.phase = .start) :
    exec .recvAndDecode s = .next (requireLink (recvFrame (validateAndAck deliverDecoded)) s) := by
  simp only [exec, execRecvAndDecode, hp]

/-- SEND_PACKET past its own checks, with its frame built. -/
theorem exec_sendPacket_of_ok {s : State} {ck : Bool} {packet : Bytes} (hp : s.phase = .start) (h : InLenOk s)
    (hpk : createPacketOf s.params.hexCase (inBytes s) (customChecksum ck s) = .ok packet) (chk : Bool) :
    exec (.sendPacket ck chk) s = .next (requireLink (beginTx packet .command) s) := by
  rw [exec_sendPacket_start hp, sendPacketStart, requireInLen_of_ok h, hpk]

/-- Settles O33: each of these commands, its own checks passed, begins with the check for the link. -/
theorem notConnectedFails : Obligations.NotConnectedFails := by
  intro s i hp hl hi
  have hcheck : ∃ k, exec i s = .next (requireLink k s) := by
    rcases hi with rfl | rfl | rfl | rfl | ⟨v, rfl⟩ | rfl | ⟨hin, chk, rfl⟩ | ⟨hin, hck, chk, rfl⟩
    · exact ⟨_, exec_checkAck_start hp⟩
    · exact ⟨_, congrArg Host.Outcome.next (sendByte_start hp ACK)⟩
    · exact ⟨_, congrArg Host.Outcome.next (sendByte_start hp NACK)⟩
    · exact ⟨_, congrArg Host.Outcome.next (sendByte_start hp INTR)⟩
    · exact ⟨_, exec_recvPacket_start hp v⟩
    · exact ⟨_, exec_recvAndDecode_start hp⟩
    · obtain ⟨hi, lo, he, -⟩ := exists_isChecksum ((inBytes s).flatMap escaped)
      exact ⟨_, exec_sendPacket_of_ok hp hin (createPacketOf_computed he s) chk⟩
    · exact ⟨_, exec_sendPacket_of_ok hp hin (createPacketOf_custom hck _) chk⟩
  obtain ⟨k, hk⟩ := hcheck
  exact ⟨_, requireLink_of_no_link hl ▸ hk, failRecordsTheError .notConnected 0 s⟩

end Sys2Proof.Machine
end

section
/-! SUPPORT. The frame scan and the frames (44_packet_exchange.md rules R246, R263): a scan stands at each of its points as
it would had it begun with the bytes that it has taken, and each form of those bytes has one result. -/
namespace Sys2Proof.Machine
open Sys2Proof.Safety

/-- A body without `#` is taken whole while the limit is not reached. -/
theorem scan_body {max : Nat} {body acc : Bytes} (buf : Bytes) (hb : 0x23 ∉ body)
    (hl : acc.length + body.length ≤ max) : scan max (body ++ buf) .body acc = scan max buf .body (acc ++ body) := by
  induction body generalizing acc with
  | nil => simp
  | cons b body ih =>
    obtain ⟨hne, hb⟩ : (0x23 : Byte) ≠ b ∧ 0x23 ∉ body := by simpa using hb
    have hne : b ≠ EOP := hne.symm
    rw [List.length_cons] at hl
    rw [List.cons_append, scan, if_neg (by omega), if_neg hne, ih hb (by simp; omega), List.append_assoc]
    rfl

/-- From `$` and a body on, the scan is that of what comes after them. -/
theorem scan_sop_body {max : Nat} {body : Bytes} (buf : Bytes) (hb : 0x23 ∉ body) (hl : body.length + 1 ≤ max) :
    scan max (0x24 :: body ++ buf) .sop [] = scan max buf .body (0x24 :: body) :=
  scan_body (acc := [SOP]) buf hb (by simp; omega)

/-- From `$`, a body and `#` on too. -/
theorem scan_sop_eop {max : Nat} {body : Bytes} (buf : Bytes) (hb : 0x23 ∉ body) (hl : body.length + 2 ≤ max) :
    scan max (0x24 :: body ++ 0x23 :: buf) .sop [] = scan max buf .ck0 (0x24 :: body ++ [0x23]) := by
  rw [scan_sop_body _ hb (by omega), scan, if_neg (by simp; omega)]
  rfl

/-- A scan that has taken its first bytes goes on as the scan of all of them. -/
theorem scan_sop_taken {max : Nat} {acc : Bytes} {pt : ScanPoint} (h : ScanOk max acc pt) (buf : Bytes) :
    scan max (taken acc pt ++ buf) .sop [] = scan max buf pt acc := by
  cases pt with
  | sop =>
    obtain rfl : acc = [] := h
    rfl
  | body =>
    obtain ⟨body, rfl, hb, hl⟩ := h
    exact scan_sop_body buf hb (by simpa using hl.le)
  | ck0 =>
    obtain ⟨body, rfl, hb, hl⟩ := h
    simpa [taken] using scan_sop_eop buf hb (by simp at hl; omega)
  | ck1 c0 =>
    obtain ⟨body, rfl, hb, hl⟩ := h
    simpa [taken, scan] using scan_sop_eop (c0 :: buf) hb (by simp at hl; omega)

/-! ## The form of the bytes that each result stands for -/

theorem scan_of_frame {max : Nat} {p : Bytes} (h : FrameShape max p) (rest : Bytes) :
    scan max (p ++ rest) .sop [] = .frame p rest := by
  obtain ⟨body, c0, c1, rfl, hb, hl⟩ := h
  simpa [scan] using scan_sop_eop (c0 :: c1 :: rest) hb hl

theorem scan_of_oversized {max : Nat} {body : Bytes} (rest : Bytes) (hb : 0x23 ∉ body) (hl : body.length + 1 = max) :
    scan max (0x24 :: body ++ rest) .sop [] = .oversized := by
  rw [scan_sop_body rest hb hl.le]
  cases rest <;> exact if_pos hl.ge

theorem scan_of_taken {max : Nat} {acc : Bytes} {pt : ScanPoint} (h : ScanOk max acc pt) :
    scan max (taken acc pt) .sop [] = .more pt acc := by
  have hend := scan_sop_taken h []
  rw [List.append_nil] at hend
  rw [hend]
  cases pt with
  | body =>
    obtain ⟨-, -, -, hl⟩ := h
    exact if_neg hl.not_ge
  | sop | ck0 | ck1 => rfl

theorem scan_of_bad_sop {b : Byte} (hb : b ≠ 0x24) (max : Nat) (rest : Bytes) :
    scan max (b :: rest) .sop [] = .badSop b := if_neg hb

/-- Settles O45: what the scan has taken has the form of its result, and each form has that result alone. -/
theorem scanTakesExactlyTheFrames : Obligations.ScanTakesExactlyTheFrames := by
  intro max buf pt acc hm h
  have hspec := scan_spec max buf pt acc hm ⟨scanOk_succ h, fun _ => h⟩
  have hall := scan_sop_taken h buf
  refine ⟨fun p rest => ⟨fun e => ?_, fun ⟨ht, hp⟩ => ?_⟩, fun b => ⟨fun e => ?_, fun ⟨ht, hb, rest, hbuf⟩ => ?_⟩,
    ⟨fun e => ?_, fun ⟨body, rest, ht, hb, hl⟩ => ?_⟩, fun pt' acc' => ⟨fun e => ?_, fun ⟨ht, hp⟩ => ?_⟩⟩
  · simpa only [e] using hspec
  · rw [← hall, ht, scan_of_frame hp]
  · rw [e] at hspec
    obtain ⟨rfl, rest, hbuf, hb⟩ := hspec
    exact ⟨h, hb, rest, hbuf⟩
  · rw [← hall, ht, hbuf, List.nil_append, scan_of_bad_sop hb]
  · simpa only [e] using hspec
  · rw [← hall, ht, scan_of_oversized rest hb hl]
  · simpa only [e] using hspec
  · rw [← hall, ht, scan_of_taken hp]

end Sys2Proof.Machine
end

section
/-! SUPPORT. The commands that send (44_packet_exchange.md rules R240 to R245): a send up to its write, the write's end, and
the byte that an ACK wait reads. -/
namespace Sys2Proof.Machine
open Sys2Proof.Safety

/-! ## The end of a send, with its frames -/

/-- A command's step that may write no element of the link side. -/
theorem sameLinkSide_of_leaves {s t : State} (h : Leaves {} s t) : SameLinkSide s t :=
  ⟨h.link rfl, h.ackMode rfl, h.rxBuf rfl, h.acc rfl, h.tArm rfl⟩

theorem completed_complete_nil (s : State) :
    Completed (complete [] 0 s) [] 0 ∧ SameFixed s (complete [] 0 s) ∧ SameLinkSide s (complete [] 0 s) ∧
      SameTransport s (complete [] 0 s) ∧ SameOutsideOut s (complete [] 0 s) 0 := by
  rw [complete_nil]
  exact ⟨completed_finish_nil s, sameFixed_finish [] 0 s, sameLinkSide_finish [] 0 s, sameTransport_finish [] 0 s,
    sameOutsideOut_finish [] 0 s⟩

/-! ## One-byte sends (rules R243 to R245) -/

/-- The one-byte sends are sendByte of their own byte. -/
theorem exec_singleByteSend {i : Instr} {b : Byte}
    (h : (i = .sendAck ∧ b = 0x2B) ∨ (i = .sendNack ∧ b = 0x2D) ∨ (i = .sendInterrupt ∧ b = 0x03)) (s : State) :
    exec i s = .next (sendByte b s) := by
  rcases h with ⟨rfl, rfl⟩ | ⟨rfl, rfl⟩ | ⟨rfl, rfl⟩ <;> rfl

theorem sendByte_of_link {s : State} (hp : s.phase = .start) (hl : s.link = true) (b : Byte) :
    sendByte b s = { s with phase := .sending [b] .command none } := by
  rw [sendByte_start hp, requireLink_of_link hl]
  rfl

theorem sendByte_sending {s : State} {packet : Bytes} {answer : Option TxAnswer}
    (hp : s.phase = .sending packet .command answer) (b : Byte) :
    sendByte b s = afterTx (complete [] 0) answer s := by
  simp only [sendByte, hp]

/-- Settles O38: the check for the link, the write, and each of its answers. -/
theorem singleByteSends : Obligations.SingleByteSends := by
  intro s i b _ hi
  rw [exec_singleByteSend hi]
  refine ⟨fun hp hl => ⟨_, rfl, ?_⟩, fun hp hl => by rw [sendByte_of_link hp hl], fun hp => by rw [sendByte_sending hp]; rfl,
    fun hp => ⟨_, rfl, ?_⟩, fun hp => ⟨_, rfl, ?_⟩⟩
  · rw [sendByte_start hp, requireLink_of_no_link hl]
    exact failRecordsTheError .notConnected 0 s
  · rw [sendByte_sending hp]
    exact failRecordsTheError .ioError 0 s
  · rw [sendByte_sending hp]
    exact completed_complete_nil s

/-- A command that ends when its one write is accepted, from its start to its end: TXLOG and what the peer has received gain
the write, and the link side and memory are as before. -/
theorem run_one_write {s : State} {i : Instr} {packet : Bytes} (hp : s.phase = .start)
    (hw : decodeWord s.curCmd = .ok i) (ha : s.agenda = [.block, .event .txDone, .block])
    (hstart : ∀ rest, exec i { s with agenda := rest } =
      .next { s with agenda := rest, phase := .sending packet .command none })
    (hend : ∀ u, u.phase = .sending packet .command (some .done) → u.ackMode = s.ackMode →
      exec i u = .next (complete [] 0 u)) :
    ∃ t, core.run 3 s = .next t ∧ Completed t [] 0 ∧ t.txLog = s.txLog ++ [packet] ∧ t.peerGot = s.peerGot ++ packet ∧
      SameLinkSide s t ∧ t.rxStream = s.rxStream ∧ ∀ a, t.byteAt a = s.byteAt a := by
  have hend := hend { s with
    agenda := [], phase := .sending packet .command (some .done), txLog := s.txLog ++ [packet],
    peerGot := s.peerGot ++ packet } rfl rfl
  rw [complete_nil] at hend
  exact ⟨_, run_block_event_block ha hp hw (hstart _) (transmitEvents.1 _ packet .command rfl).1 hend,
    completed_finish_nil _, rfl, rfl, ⟨rfl, rfl, rfl, rfl, rfl⟩, rfl, fun _ => rfl⟩

/-- Settles O39: the byte's write, TxDone, and the completion. -/
theorem singleByteSendsRunToCompletion : Obligations.SingleByteSendsRunToCompletion := by
  intro s b _ hp hl hcmd ha
  obtain ⟨i, hw, hi⟩ : ∃ i, decodeWord s.curCmd = .ok i ∧
      ((i = .sendAck ∧ b = 0x2B) ∨ (i = .sendNack ∧ b = 0x2D) ∨ (i = .sendInterrupt ∧ b = 0x03)) := by
    rcases hcmd with ⟨hc, hb⟩ | ⟨hc, hb⟩ | ⟨hc, hb⟩ <;> rw [hc]
    exacts [⟨_, decodeWord_encode .sendAck, .inl ⟨rfl, hb⟩⟩, ⟨_, decodeWord_encode .sendNack, .inr (.inl ⟨rfl, hb⟩)⟩,
      ⟨_, decodeWord_encode .sendInterrupt, .inr (.inr ⟨rfl, hb⟩)⟩]
  refine run_one_write hp hw ha (fun rest => ?_) fun u hu _ => ?_
  · exact (exec_singleByteSend hi _).trans (congrArg _ (sendByte_of_link (s := { s with agenda := rest }) hp hl b))
  · exact (exec_singleByteSend hi u).trans (congrArg _ (sendByte_sending hu b))

/-! ## SEND_PACKET up to its write (rule R240) -/

theorem leaves_exec_sendPacket_start {s t : State} (hp : s.phase = .start) {ck chk : Bool}
    (h : exec (.sendPacket ck chk) s = .next t) : Leaves {} s t := by
  cases (exec_sendPacket_start hp ck chk).symm.trans h
  refine (stepLeaves_requireInLen ?_).toLeaves
  split
  exacts [stepLeaves_fail _ _, stepLeaves_requireLink (stepLeaves_phase _)]

theorem exec_sendPacket_bad_custom {s : State} (hp : s.phase = .start) (h : InLenOk s) (hbad : ¬ ArgIsChecksum s)
    (chk : Bool) : exec (.sendPacket true chk) s = .next (fail .badCustomChecksum 0 s) := by
  rw [exec_sendPacket_start hp, sendPacketStart, requireInLen_of_ok h, createPacketOf_bad_custom hbad]

theorem exec_sendPacket_of_link {s : State} {ck : Bool} {packet : Bytes} (hp : s.phase = .start) (h : InLenOk s)
    (hpk : createPacketOf s.params.hexCase (inBytes s) (customChecksum ck s) = .ok packet) (hl : s.link = true)
    (chk : Bool) : exec (.sendPacket ck chk) s = .next { s with phase := .sending packet .command none } := by
  rw [exec_sendPacket_of_ok hp h hpk, requireLink_of_link hl]
  rfl

/-- With the checksum's own check passed there is a frame to send. -/
theorem exists_createPacketOf {s : State} {ck : Bool} (hck : ck = true → ArgIsChecksum s) :
    ∃ packet, createPacketOf s.params.hexCase (inBytes s) (customChecksum ck s) = .ok packet := by
  cases ck with
  | false =>
    obtain ⟨hi, lo, he, -⟩ := exists_isChecksum ((inBytes s).flatMap escaped)
    exact ⟨_, createPacketOf_computed he s⟩
  | true => exact ⟨_, createPacketOf_custom (hck rfl) _⟩

/-- Settles O34: the three checks in the rule's order, and the frame of either form. -/
theorem sendPacketStartResult : Obligations.SendPacketStart := by
  intro s ck chk hp
  obtain ⟨t, ht⟩ := exec_answers (.sendPacket ck chk) s
  have leaves := leaves_exec_sendPacket_start hp ht
  refine ⟨t, ht, leaves.fixed, sameLinkSide_of_leaves leaves, leaves.transport rfl, fun h => ?_, fun h hform hbad => ?_,
    fun h hck hl => ?_, fun h hck hl => ⟨fun hform => ?_, fun hform => ?_⟩⟩
  · cases ht.symm.trans (exec_sendPacket_start hp ck chk)
    exact failed_requireInLen h
  · subst hform
    cases ht.symm.trans (exec_sendPacket_bad_custom hp h hbad chk)
    exact failed_fail .badCustomChecksum 0 s
  · obtain ⟨packet, hpk⟩ := exists_createPacketOf hck
    cases ht.symm.trans (exec_sendPacket_of_ok hp h hpk chk)
    exact requireLink_of_no_link hl ▸ failed_fail .notConnected 0 s
  · subst hform
    cases ht.symm.trans (exec_sendPacket_of_link hp h (createPacketOf_custom (hck rfl) _) hl chk)
    rfl
  · subst hform
    obtain ⟨hi, lo, he, hsum⟩ := exists_isChecksum ((inBytes s).flatMap escaped)
    cases ht.symm.trans (exec_sendPacket_of_link hp h (createPacketOf_computed he s) hl chk)
    exact ⟨hi, lo, hsum, rfl⟩

/-! ## The byte of an ACK wait (rule R241) -/

theorem ackByte_of_nil {s : State} (hb : s.rxBuf = []) : ackByte s = refill .ack s := by
  simp only [ackByte, hb]

theorem ackByte_of_cons {s : State} {b : Byte} {rest : Bytes} (hb : s.rxBuf = b :: rest) :
    ackByte s =
      if b = 0x2B then finish [] 0 { s with rxBuf := rest }
      else if b = 0x2D then fail .nack 0x2D { s with rxBuf := rest }
      else fail .unexpectedAckByte (b.setWidth 32) { s with rxBuf := b :: rest } := by
  simp only [ackByte, hb, complete_nil]
  rfl

theorem ackEnds_ackByte {s : State} {b : Byte} {rest : Bytes} (hb : s.rxBuf = b :: rest) :
    AckEnds s (ackByte s) b rest := by
  rw [ackByte_of_cons hb]
  refine ⟨fun hack => ?_, fun hnack => ?_, fun hack hnack => ?_⟩
  · rw [if_pos hack]
    exact ⟨completed_finish_nil _, rfl, sameOutsideOut_finish [] 0 _⟩
  · subst hnack
    exact ⟨failed_fail .nack _ _, rfl⟩
  · rw [if_neg hack, if_neg hnack]
    exact ⟨failed_fail .unexpectedAckByte _ _, rfl⟩

/-- The window stays as it was armed. -/
theorem tArm_ackByte (s : State) : (ackByte s).tArm = s.tArm := by
  cases hb : s.rxBuf with
  | nil =>
    rw [ackByte_of_nil hb]
    rcases refill_cases .ack s with ⟨-, e⟩ | ⟨-, e⟩ <;> exact e ▸ rfl
  | cons b rest =>
    rw [ackByte_of_cons hb]
    split_ifs <;> rfl

theorem ackWait_of_nil {s : State} (hb : s.rxBuf = []) (ht : 0 < s.cfgTimeout.toNat) :
    (ackWait s).armed = true ∧ (ackWait s).rxBuf = [] ∧ WaitsAt (ackWait s) .ack (s.cfgTimeout.toNat : Int) ∧
      SameOutputs s (ackWait s) := by
  have hr : remaining (arm s) = (s.cfgTimeout.toNat : Int) := by simp [remaining]
  have hw : ackWait s = refill .ack (arm s) := ackByte_of_nil (s := arm s) hb
  rw [hw]
  rcases refill_cases .ack (arm s) with ⟨hle, -⟩ | ⟨-, e⟩
  · omega
  · rw [e, hr]
    exact ⟨rfl, hb, rfl, { sameOutputs_refl s with }⟩

/-- What an ACK wait that begins now leaves, with a byte at hand and without. -/
theorem ackWait_result (s : State) :
    (ackWait s).tArm = s.now ∧ (ackWait s).link = s.link ∧ (ackWait s).ackMode = s.ackMode ∧ (ackWait s).acc = s.acc ∧
      SameFixed s (ackWait s) ∧ SameTransport s (ackWait s) ∧
      (∀ b rest, s.rxBuf = b :: rest → AckEnds s (ackWait s) b rest) ∧
      (s.rxBuf = [] → 0 < s.cfgTimeout.toNat → (ackWait s).armed = true ∧ (ackWait s).rxBuf = [] ∧
        WaitsAt (ackWait s) .ack (s.cfgTimeout.toNat : Int) ∧ SameOutputs s (ackWait s)) := by
  have leaves : Leaves ackWrites s (ackWait s) := stepLeaves_ackWait.toLeaves
  exact ⟨tArm_ackByte (arm s), leaves.link rfl, leaves.ackMode rfl, leaves.acc rfl, leaves.fixed, leaves.transport rfl,
    fun b rest hb => ackEnds_ackByte (s := arm s) hb, ackWait_of_nil⟩

theorem ackByte_result {s : State} {b : Byte} {rest : Bytes} (hb : s.rxBuf = b :: rest) :
    AckEnds s (ackByte s) b rest ∧ (ackByte s).tArm = s.tArm ∧ (ackByte s).link = s.link ∧
      (ackByte s).ackMode = s.ackMode ∧ (ackByte s).acc = s.acc ∧ SameFixed s (ackByte s) ∧
      SameTransport s (ackByte s) := by
  have leaves : Leaves ackWrites s (ackByte s) := stepLeaves_ackByte.toLeaves
  exact ⟨ackEnds_ackByte hb, tArm_ackByte s, leaves.link rfl, leaves.ackMode rfl, leaves.acc rfl, leaves.fixed,
    leaves.transport rfl⟩

/-! ## CHECK_ACK (rule R242) -/

theorem exec_checkAck_refilling {s : State} {t0 w : Int} {answer : Option RxAnswer}
    (hp : s.phase = .refilling .ack t0 w answer) :
    exec .checkAck s = .next (afterRefill ackByte .ack answer s) := by
  simp only [exec, execCheckAck, hp]

/-- Settles O37: the check for the link, then the ACK wait, armed now or resumed with the refill's bytes. -/
theorem checkAckResult : Obligations.CheckAckResult := by
  refine fun s _ => ⟨fun t0 w hp => exec_checkAck_refilling hp, fun hp hl => ?_, fun hp hl => ?_,
    fun t0 w b rest hp hb => ⟨_, exec_checkAck_refilling hp, ackByte_result hb⟩⟩
  · exact ⟨_, requireLink_of_no_link hl ▸ exec_checkAck_start hp, failed_fail .notConnected 0 s⟩
  · have h := requireLink_of_link hl ▸ exec_checkAck_start hp
    exact ⟨_, h, hl ▸ ackWait_result s⟩

/-! ## SEND_PACKET after its write (rule R240) -/

theorem exec_sendPacket_sending {s : State} {packet : Bytes} {answer : Option TxAnswer}
    (hp : s.phase = .sending packet .command answer) (ck chk : Bool) :
    exec (.sendPacket ck chk) s = .next (afterTx (sendPacketSent chk) answer s) := by
  simp only [exec, execSendPacket, hp]

theorem exec_sendPacket_refilling {s : State} {t0 w : Int} {answer : Option RxAnswer}
    (hp : s.phase = .refilling .ack t0 w answer) (ck chk : Bool) :
    exec (.sendPacket ck chk) s = .next (afterRefill ackByte .ack answer s) := by
  simp only [exec, execSendPacket, hp]

theorem sendPacketSent_of_no_ack {s : State} {chk : Bool} (h : chk = false ∨ s.ackMode = false) :
    sendPacketSent chk s = complete [] 0 s := if_neg (by rcases h with h | h <;> simp [h])

theorem sendPacketSent_of_ack {s : State} (h : s.ackMode = true) : sendPacketSent true s = ackWait s := if_pos (by simp [h])

/-- Settles O35: the write's answers, and the ACK wait as in CHECK_ACK. -/
theorem sendPacketAfterWrite : Obligations.SendPacketAfterWrite := by
  intro s ck chk packet _
  refine ⟨?_, fun hp => ?_, fun hp hno => ?_, fun hp hchk hmode => ?_, fun t0 w b rest hp hb => ?_⟩
  · rintro (hp | ⟨t0, w, hp⟩)
    exacts [exec_sendPacket_sending hp ck chk, exec_sendPacket_refilling hp ck chk]
  · exact ⟨_, exec_sendPacket_sending hp ck chk, failRecordsTheError .ioError 0 s⟩
  · have h := exec_sendPacket_sending hp ck chk
    rw [afterTx, sendPacketSent_of_no_ack hno] at h
    exact ⟨_, h, completed_complete_nil s⟩
  · have h := exec_sendPacket_sending hp ck chk
    rw [hchk, afterTx, sendPacketSent_of_ack hmode] at h
    exact ⟨_, hchk ▸ h, hmode ▸ ackWait_result s⟩
  · exact ⟨_, exec_sendPacket_refilling hp ck chk, ackByte_result hb⟩

/-! ## SEND_PACKET from its start to its end -/

/-- The operand does not depend on the agents' coming turns. -/
theorem inBytes_agenda (s : State) (rest : List Turn) : inBytes { s with agenda := rest } = inBytes s := by
  have bytes (n a : Nat) : { s with agenda := rest }.bytesAt a n = s.bytesAt a n := by
    induction n generalizing a with
    | zero => rfl
    | succ n ih => exact congrArg _ (ih (a + 1))
  exact bytes s.inLen.toNat inBase

/-- Without an ACK wait the frame's write is the only one. -/
theorem run_sendPacket {s : State} {ck chk : Bool} {packet : Bytes} (hp : s.phase = .start) (h : InLenOk s)
    (hl : s.link = true) (ha : s.agenda = [.block, .event .txDone, .block])
    (hw : decodeWord s.curCmd = .ok (.sendPacket ck chk)) (hno : chk = false ∨ s.ackMode = false)
    (hpk : createPacketOf s.params.hexCase (inBytes s) (customChecksum ck s) = .ok packet) :
    ∃ t, core.run 3 s = .next t ∧ Completed t [] 0 ∧ t.txLog = s.txLog ++ [packet] ∧ t.peerGot = s.peerGot ++ packet ∧
      SameLinkSide s t ∧ t.rxStream = s.rxStream := by
  obtain ⟨t, hrun, hend, hlog, hgot, hside, hstream, -⟩ := run_one_write hp hw ha
    (fun rest => exec_sendPacket_of_link (s := { s with agenda := rest }) hp h (inBytes_agenda s rest ▸ hpk) hl chk)
    fun u hu hmode => by
      rw [exec_sendPacket_sending hu, afterTx, sendPacketSent_of_no_ack (hmode ▸ hno)]
  exact ⟨t, hrun, hend, hlog, hgot, hside, hstream⟩

/-- Settles O36: each of the four words that waits for no acknowledgement sends its own frame. -/
theorem sendPacketRunsToCompletion : Obligations.SendPacketRunsToCompletion := by
  intro s _ hp h hl ha
  have word (ck chk : Bool) (hc : s.curCmd = encode (.sendPacket ck chk)) :
      decodeWord s.curCmd = .ok (.sendPacket ck chk) := hc ▸ decodeWord_encode _
  refine ⟨fun hcmd => ?_, fun hcmd hck => ?_⟩
  · obtain ⟨hi, lo, he, hsum⟩ := exists_isChecksum ((inBytes s).flatMap escaped)
    have hpk := createPacketOf_computed he s
    rcases hcmd with hc | ⟨hc, hmode⟩
    · exact ⟨hi, lo, hsum, run_sendPacket hp h hl ha (word false false hc) (.inl rfl) hpk⟩
    · exact ⟨hi, lo, hsum, run_sendPacket hp h hl ha (word false true hc) (.inr hmode) hpk⟩
  · have hpk := createPacketOf_custom hck (inBytes s)
    rcases hcmd with hc | ⟨hc, hmode⟩
    · exact run_sendPacket hp h hl ha (word true false hc) (.inl rfl) hpk
    · exact run_sendPacket hp h hl ha (word true true hc) (.inr hmode) hpk

end Sys2Proof.Machine
end

section
/-! SUPPORT. The two receives as one (44_packet_exchange.md rules R250, R251): they scan alike, and differ in what they do
with the frame and in what they deliver. A scanning step is said once, by the result of its scan. -/
namespace Sys2Proof.Machine
open Sys2Proof.Safety

/-! ## The receives -/

/-- RECV_PACKET in both forms, and RECV_AND_DECODE. -/
def IsReceive (i : Instr) : Prop := i = .recvAndDecode ∨ ∃ v, i = .recvPacket v

/-- What a receive does with its frame at the end. -/
def deliver : Instr → Bytes → State → State
  | .recvAndDecode => deliverDecoded
  | _ => deliverRaw

/-- What a receive does with its frame once the scan has returned it. -/
def onFrame : Instr → Bytes → State → State
  | .recvPacket v => recvPacketFrame v
  | _ => validateAndAck deliverDecoded

/-- A receive delivers the frame at once, or validates it first. -/
theorem onFrame_cases {i : Instr} (hi : IsReceive i) :
    onFrame i = deliver i ∨ onFrame i = validateAndAck (deliver i) := by
  rcases hi with rfl | ⟨v, rfl⟩
  · exact .inr rfl
  · cases v
    exacts [.inl rfl, .inr rfl]

section
variable {s : State} {p : Bytes} {k : Bytes → State → State}

theorem validateAndAck_of_error {e : Err} (hv : validateOf s.params.hexCase p = some e) :
    validateAndAck k p s = fail e 0 s := by
  simp only [validateAndAck, hv]

theorem validateAndAck_of_ack (hv : validateOf s.params.hexCase p = none) (hm : s.ackMode = true) :
    validateAndAck k p s = { s with phase := .sending [0x2B] (.plus p) none } := by
  simp only [validateAndAck, hv]
  exact if_pos hm

theorem validateAndAck_of_no_ack (hv : validateOf s.params.hexCase p = none) (hm : s.ackMode = false) :
    validateAndAck k p s = k p s := by
  simp only [validateAndAck, hv]
  exact if_neg (ne_true_of_eq_false hm)

end

/-! ## What a receive's end leaves alone -/

section
variable {w : Writes} {s : State}

theorem leaves_deliver (i : Instr) (p : Bytes) : StepLeaves w s (deliver i p s) := by
  unfold deliver
  split
  · unfold deliverDecoded
    split
    exacts [stepLeaves_fail _ _, stepLeaves_complete _ _]
  · exact stepLeaves_complete _ _

theorem leaves_onFrame {i : Instr} (hi : IsReceive i) (p : Bytes) : StepLeaves w s (onFrame i p s) := by
  rcases onFrame_cases hi with h | h <;> rw [h]
  · exact leaves_deliver i p
  · unfold validateAndAck
    split
    · exact stepLeaves_fail _ _
    split
    exacts [stepLeaves_phase _, leaves_deliver i p]

end

/-! ## A receive in its waits -/

section
variable {i : Instr} (hi : IsReceive i) {s : State}
include hi

theorem exec_receive_plus {packet p : Bytes} {answer : Option TxAnswer} (hp : s.phase = .sending packet (.plus p) answer) :
    exec i s = .next (afterTx (deliver i p) answer s) := by
  rcases hi with rfl | ⟨v, rfl⟩
  · simp only [exec, execRecvAndDecode, hp, deliver]
  · simp only [exec, execRecvPacket, hp, deliver]

theorem exec_receive_refilling {pt : ScanPoint} {t0 w : Int} {answer : Option RxAnswer}
    (hp : s.phase = .refilling (.scan pt) t0 w answer) :
    exec i s = .next (afterRefill (scanFrom (onFrame i) pt) (.scan pt) answer s) := by
  rcases hi with rfl | ⟨v, rfl⟩
  · simp only [exec, execRecvAndDecode, hp, onFrame]
  · simp only [exec, execRecvPacket, hp, onFrame]

/-- In an unanswered wait a receive's step changes nothing (40_command_cycle.md rule R127). -/
theorem exec_receive_unanswered (hp : (∃ p, s.phase = .sending [0x2B] (.plus p) none) ∨
    ∃ pt t0 w, s.phase = .refilling (.scan pt) t0 w none) : exec i s = .next s := by
  rcases hp with ⟨p, hp⟩ | ⟨pt, t0, w, hp⟩
  exacts [exec_receive_plus hi hp, exec_receive_refilling hi hp]

/-- When the `+` is not accepted the receive ends with 0x52. -/
theorem exec_receive_plus_failed {p : Bytes} (hp : s.phase = .sending [0x2B] (.plus p) (some .failed)) :
    ∃ t, exec i s = .next t ∧ Failed t 0x52 0 ∧ SameLinkSide s t ∧ SameFixed s t ∧ SameTransport s t :=
  ⟨_, exec_receive_plus hi hp, failed_fail .ioError 0 s, sameLinkSide_fail .ioError 0 s, sameFixed_fail .ioError 0 s,
    sameTransport_fail .ioError 0 s⟩

end

/-! ## A scanning step (rule R246) -/

/-- The state in a scan's window, with what the scan has left in RXBUF and gathered in ACC. -/
def scanned (s : State) (rxBuf acc : Bytes) : State :=
  { s with rxBuf := rxBuf, acc := acc, armed := true, tArm := windowStart s }

/-- How a receive goes on from the result of its scan. -/
def afterScan (k : Bytes → State → State) (s : State) (acc : Bytes) : ScanResult → State
  | .frame p rest => k p (scanned s rest [])
  | .more pt acc' => refill (.scan pt) (scanned s [] acc')
  | .badSop b => scanFail .unexpectedSop (b.setWidth 32) (scanned s s.rxBuf acc)
  | .oversized => scanFail .oversized (BitVec.ofNat 32 s.params.maxPacketLen) (scanned s s.rxBuf acc)

theorem scanFrom_eq_afterScan (k : Bytes → State → State) (pt : ScanPoint) (s : State) (acc : Bytes) :
    scanFrom k pt (scanned s s.rxBuf acc) = afterScan k s acc (scan s.params.maxPacketLen s.rxBuf pt acc) := by
  simp only [scanFrom, scanned]
  cases scan s.params.maxPacketLen s.rxBuf pt acc <;> rfl

/-- A receive that scans at its next step goes on from the scan of all the bytes of its frame, taken and at hand. -/
theorem exec_receive_scan {i : Instr} (hi : IsReceive i) {s : State} {held : Bytes} (h : ScansAfter s held) :
    ∃ acc, exec i s =
      .next (afterScan (onFrame i) s acc (scan s.params.maxPacketLen (held ++ s.rxBuf) .sop [])) := by
  obtain ⟨pt, u, rfl, hok, hu, hraw, hdecode⟩ := exec_of_scansAfter h
  have hu : u = scanned s s.rxBuf u.acc := hu
  refine ⟨u.acc, ?_⟩
  rw [scan_sop_taken hok, ← scanFrom_eq_afterScan, ← hu]
  rcases hi with rfl | ⟨v, rfl⟩
  exacts [hdecode, hraw v]

/-! ## What a scanning step leaves alone -/

/-- A scan writes RXBUF and ACC, and in its window nothing else of the link side. -/
def scanWrites : Writes := { rxBuf := true, acc := true }

theorem receiveFrame_of_leaves {s t : State} {rxBuf acc : Bytes} (h : Leaves scanWrites (scanned s rxBuf acc) t) :
    ReceiveFrame s t where
  link := h.link rfl
  ackMode := h.ackMode rfl
  tArm := h.tArm rfl
  fixed := SameFixed.trans (t := scanned s rxBuf acc) { sameFixed_refl s with } h.fixed
  transport := SameTransport.trans (t := scanned s rxBuf acc) { sameTransport_refl s with } (h.transport rfl)

theorem leaves_scanFail (e : Err) (r : Word) (s : State) : Leaves scanWrites s (scanFail e r s) :=
  ⟨sameFixed_scanFail e r s, fun _ => rfl, fun _ => rfl, nofun, nofun, fun _ => rfl, fun _ => sameTransport_scanFail e r s⟩

/-- A whole frame is taken out of RXBUF, and ACC is empty after it (log entry 11). -/
theorem receiveFrame_onFrame {i : Instr} (hi : IsReceive i) (s : State) (p rest : Bytes) :
    ReceiveFrame s (onFrame i p (scanned s rest [])) ∧ (onFrame i p (scanned s rest [])).rxBuf = rest ∧
      (onFrame i p (scanned s rest [])).acc = [] := by
  have hside := sameLinkSide_of_leaves (leaves_onFrame (s := scanned s rest []) hi p).toLeaves
  exact ⟨receiveFrame_of_leaves (leaves_onFrame hi p).toLeaves, hside.rxBuf, hside.acc⟩

/-! ## The frame's length -/

theorem length_of_frameShape {max : Nat} {p : Bytes} (h : FrameShape max p) : 4 ≤ p.length ∧ p.length ≤ max + 2 := by
  obtain ⟨body, c0, c1, rfl, -, hl⟩ := h
  simp
  omega

/-- A frame always fits in OUT (00_scope.md rule R5). -/
theorem length_le_outCap {s : State} (hp : s.params.wf = true) {p : Bytes} (h : FrameShape s.params.maxPacketLen p) :
    p.length ≤ s.params.outCap := by
  obtain ⟨-, hcap, -⟩ := wf_facts hp
  exact (length_of_frameShape h).2.trans hcap

/-! ## With a whole frame at hand -/

section
variable {i : Instr} (hi : IsReceive i) {s : State} {held : Bytes} (h : ScansAfter s held)
include hi h

theorem exec_receive_frame {p rest : Bytes} (hp : FrameShape s.params.maxPacketLen p)
    (hb : held ++ s.rxBuf = p ++ rest) : exec i s = .next (onFrame i p (scanned s rest [])) := by
  obtain ⟨acc, he⟩ := exec_receive_scan hi h
  rw [he, hb, scan_of_frame hp, afterScan]

/-- The validated frame's outcomes, the same for both receives that validate. -/
theorem exec_receive_validated (hv : onFrame i = validateAndAck (deliver i)) {p rest : Bytes}
    (hp : FrameShape s.params.maxPacketLen p) (hb : held ++ s.rxBuf = p ++ rest) :
    ∃ t, exec i s = .next t ∧ ReceiveFrame s t ∧ t.rxBuf = rest ∧ t.acc = [] ∧
      (∀ e, validateOf s.params.hexCase p = some e → Failed t e.code 0) ∧
      (validateOf s.params.hexCase p = none → s.ackMode = true →
        t.phase = .sending [0x2B] (.plus p) none ∧ t.armed = true ∧ SameOutputs s t) ∧
      (validateOf s.params.hexCase p = none → s.ackMode = false → t = deliver i p (scanned s rest [])) := by
  obtain ⟨hframe, hrest, hacc⟩ := receiveFrame_onFrame hi s p rest
  refine ⟨_, exec_receive_frame hi h hp hb, hframe, hrest, hacc, fun e hbad => ?_, fun hgood hmode => ?_,
    fun hgood hmode => ?_⟩
  all_goals rw [hv]
  · rw [validateAndAck_of_error (s := scanned s rest []) hbad]
    exact failed_fail e 0 _
  · rw [validateAndAck_of_ack (s := scanned s rest []) hgood hmode]
    exact ⟨rfl, rfl, { sameOutputs_refl s with }⟩
  · exact validateAndAck_of_no_ack (s := scanned s rest []) hgood hmode

/-! ## With a part of a frame at hand -/

theorem exec_receive_part {pt : ScanPoint} {acc : Bytes} (hok : ScanOk s.params.maxPacketLen acc pt)
    (hb : held ++ s.rxBuf = taken acc pt) : ∃ t, exec i s = .next t ∧ ScanWaits s t pt acc := by
  obtain ⟨acc', he⟩ := exec_receive_scan hi h
  rw [hb, scan_of_taken hok, afterScan] at he
  refine ⟨_, he, ?_⟩
  unfold ScanWaits
  change ReceiveFrame _ _ ∧ (0 < remaining (scanned s [] acc) → WaitsAt _ _ (remaining (scanned s [] acc)) ∧ _) ∧
    (remaining (scanned s [] acc) ≤ 0 → _)
  rcases refill_cases (.scan pt) (scanned s [] acc) with ⟨hr, e⟩ | ⟨hr, e⟩ <;> rw [e]
  · exact ⟨receiveFrame_of_leaves (leaves_scanFail _ _ _), fun h => absurd h (by omega),
      fun _ => ⟨failed_scanFail .deadlineExpired 0 _, rfl, scanFail_rxBuf_length ..⟩⟩
  · exact ⟨receiveFrame_of_leaves (stepLeaves_phase _).toLeaves,
      fun _ => ⟨rfl, rfl, rfl, rfl, { sameOutputs_refl s with }⟩, fun h => absurd h (by omega)⟩

/-! ## Failed scans (rule R252) -/

/-- A failed scan drops ACC, draws RXBUF anew, and leaves the rest of the link side. -/
theorem exec_receive_scanFail {e : Err} {r : Word}
    (hscan : ∀ acc, afterScan (onFrame i) s acc (scan s.params.maxPacketLen (held ++ s.rxBuf) .sop []) =
      scanFail e r (scanned s s.rxBuf acc)) :
    ∃ t, exec i s = .next t ∧ Failed t e.code r ∧ ReceiveFrame s t ∧ t.acc = [] ∧
      t.rxBuf.length ≤ s.params.rxChunkMax := by
  obtain ⟨acc, he⟩ := exec_receive_scan hi h
  rw [hscan acc] at he
  exact ⟨_, he, failed_scanFail e r _, receiveFrame_of_leaves (leaves_scanFail ..), rfl, scanFail_rxBuf_length ..⟩

end

/-- Settles O48: the scan of such bytes fails wherever it was resumed. -/
theorem scanFailures : Obligations.ScanFailures := by
  intro s i held h _ hi
  refine ⟨fun b rest hheld hbuf hb => ?_, fun body rest hall hb hl => ?_⟩
  · have hall : held ++ s.rxBuf = b :: rest := by rw [hheld, hbuf, List.nil_append]
    refine exec_receive_scanFail hi h (e := .unexpectedSop) fun acc => ?_
    rw [hall, scan_of_bad_sop hb, afterScan]
  · refine exec_receive_scanFail hi h (e := .oversized) fun acc => ?_
    rw [hall, scan_of_oversized rest hb hl, afterScan]

/-! ## RECV_PACKET (rule R250) -/

/-- The raw frame always completes. -/
theorem completed_deliverRaw {s : State} (hp : s.params.wf = true) {p : Bytes} (h : FrameShape s.params.maxPacketLen p) :
    Completed (deliverRaw p s) p 0 ∧ SameOutsideOut s (deliverRaw p s) p.length :=
  completed_complete hp (length_le_outCap hp h)

/-- Settles O46: a whole frame, delivered or validated first, a part of one, and the `+` write. -/
theorem recvPacketResult : Obligations.RecvPacketResult := by
  intro s hwf
  have hi (v : Bool) : IsReceive (.recvPacket v) := .inr ⟨v, rfl⟩
  refine ⟨fun held p rest h hp hb => ⟨?_, ?_⟩, fun held v pt acc h hok hb => exec_receive_part (hi v) h hok hb,
    fun v hp => exec_receive_unanswered (hi v) hp, fun p hshape hp => ?_, fun p hp => exec_receive_plus_failed (hi true) hp⟩
  · obtain ⟨hframe, hrest, hacc⟩ := receiveFrame_onFrame (hi false) s p rest
    exact ⟨_, exec_receive_frame (hi false) h hp hb, hframe, hrest, hacc, completed_deliverRaw (s := scanned s rest []) hwf hp⟩
  · obtain ⟨t, ht, hframe, hrest, hacc, hbad, hplus, hend⟩ := exec_receive_validated (hi true) h rfl hp hb
    exact ⟨t, ht, hframe, hrest, hacc, hbad, fun hgood hmode => hend hgood hmode ▸
      completed_deliverRaw (s := scanned s rest []) hwf hp, hplus⟩
  · obtain ⟨hend, hout⟩ := completed_deliverRaw hwf hshape
    exact ⟨_, exec_receive_plus (hi true) hp, hend, sameLinkSide_complete p 0 s, sameFixed_complete p 0 s,
      sameTransport_complete p 0 s, hout⟩

/-! ## RECV_AND_DECODE (rule R251) -/

/-- What delivering a frame comes to by the grammar of its payload. -/
theorem deliverDecoded_result {s : State} (hp : s.params.wf = true) (body : Bytes) (c0 c1 : Byte) :
    let t := deliverDecoded (0x24 :: body ++ [0x23, c0, c1]) s
    (∀ d, Decodes body d → d.length ≤ s.params.outCap → Completed t d 0 ∧ SameOutsideOut s t d.length) ∧
    (∀ d, Decodes body d → s.params.outCap < d.length → Failed t 0x62 0) ∧
    (∀ code, Malformed body code → Failed t code 0) := by
  unfold deliverDecoded
  rw [splitOf_parts]
  refine ⟨fun d hd hfit => ?_, fun d hd hlong => ?_, fun code hbad => ?_⟩
  · rw [decodeBytesOf_of_decodes hd]
    exact completed_complete hp hfit
  · rw [decodeBytesOf_of_decodes hd]
    exact failed_complete hlong
  · obtain ⟨e, he, rfl⟩ := decodeBytesOf_of_malformed hbad
    rw [he]
    exact failed_fail e 0 s

/-- Settles O47: a whole frame, validated and then decoded, a part of one, and the `+` write. -/
theorem recvAndDecodeResult : Obligations.RecvAndDecodeResult := by
  intro s hwf
  have hi : IsReceive .recvAndDecode := .inl rfl
  refine ⟨fun held body c0 c1 rest h hb hbody hl => ?_, fun held pt acc h hok hb => exec_receive_part hi h hok hb,
    exec_receive_unanswered hi, fun body c0 c1 hp => ?_, fun body c0 c1 hp => exec_receive_plus_failed hi hp⟩
  · obtain ⟨t, ht, hframe, hrest, hacc, hbad, hplus, hend⟩ :=
      exec_receive_validated hi h rfl ⟨body, c0, c1, rfl, hbody, hl⟩ hb
    exact ⟨t, ht, hframe, hrest, hacc, hbad, hplus, fun hgood hmode => hend hgood hmode ▸
      deliverDecoded_result (s := scanned s rest []) hwf body c0 c1⟩
  · have leaves : Leaves {} s (deliver .recvAndDecode (0x24 :: body ++ [0x23, c0, c1]) s) := (leaves_deliver _ _).toLeaves
    exact ⟨_, exec_receive_plus hi hp, sameLinkSide_of_leaves leaves, leaves.fixed, leaves.transport rfl,
      deliverDecoded_result hwf body c0 c1⟩

end Sys2Proof.Machine
end

section
/-! SUPPORT. What a turn of any agent does to a receive in progress: it goes on with its bytes in order, fails with one of its
own errors, or delivers its frame (44_packet_exchange.md rules R250, R260, R263). -/
namespace Sys2Proof.Machine
open Sys2Proof.Safety

/-! ## Which command a receive is, and where it stands -/

theorem decodeWord_of_inReceive {s : State} (h : InReceive s) : ∃ i, decodeWord s.curCmd = .ok i ∧ IsReceive i := by
  obtain ⟨hc | hc | hc, -⟩ := h <;> rw [hc]
  exacts [⟨_, decodeWord_encode (.recvPacket false), .inr ⟨_, rfl⟩⟩, ⟨_, decodeWord_encode (.recvPacket true), .inr ⟨_, rfl⟩⟩,
    ⟨_, decodeWord_encode .recvAndDecode, .inl rfl⟩]

/-- A receive is past dispatch: i is the command in CURCMD. -/
structure Receiving (i : Instr) (s : State) : Prop where
  inv : StateInv s
  receive : IsReceive i
  word : decodeWord s.curCmd = .ok i
  notIdle : s.phase ≠ .idle
  notDispatch : s.phase ≠ .dispatch

/-- The invariant leaves a receive its start and its two waits. -/
theorem Receiving.phase_cases {i : Instr} {s : State} (h : Receiving i s) :
    s.phase = .start ∨
    (∃ packet p answer, s.phase = .sending packet (.plus p) answer ∧ FrameShape s.params.maxPacketLen p) ∨
    ∃ pt t0 w answer, s.phase = .refilling (.scan pt) t0 w answer ∧ s.armed = true ∧
      ScanOk s.params.maxPacketLen s.acc pt := by
  have hw := h.inv.phase
  have other {j : Instr} (hj : decodeWord s.curCmd = .ok j) (hn : ¬ IsReceive j) : False :=
    hn (instr_of_decodeWord h.word hj ▸ h.receive)
  match hp : s.phase with
  | .idle => exact absurd hp h.notIdle
  | .dispatch => exact absurd hp h.notDispatch
  | .start => exact .inl rfl
  | .opening _ =>
    simp only [PhaseOk, hp] at hw
    exact (other hw.1 (by simp [IsReceive])).elim
  | .sending _ .command _ =>
    simp only [PhaseOk, hp] at hw
    obtain ⟨-, -, -, ⟨ck, chk, hj⟩ | ⟨hj, -⟩ | ⟨hj, -⟩ | ⟨hj, -⟩⟩ := hw
    all_goals exact (other hj (by simp [IsReceive])).elim
  | .sending _ (.plus _) _ =>
    simp only [PhaseOk, hp] at hw
    obtain ⟨-, -, -, -, hshape, -⟩ := hw
    exact .inr (.inl ⟨_, _, _, rfl, hshape⟩)
  | .refilling .ack _ _ _ =>
    obtain ⟨-, -, -, -, -, ⟨ck, hj⟩ | hj⟩ := (phaseOk_refilling_iff hp).mp hw
    all_goals exact (other hj (by simp [IsReceive])).elim
  | .refilling (.scan _) _ _ _ =>
    obtain ⟨harm, -, -, -, hok, -⟩ := (phaseOk_refilling_iff hp).mp hw
    exact .inr (.inr ⟨_, _, _, _, rfl, harm, hok⟩)

theorem inFlight_of_scansAfter {s : State} {held : Bytes} (h : ScansAfter s held) :
    inFlight s = held ++ s.rxBuf ++ s.rxStream := by
  rcases h with ⟨hp, -, rfl⟩ | ⟨pt, t0, w, hp, -, -, rfl⟩ <;> simp only [inFlight, hp, List.nil_append]

/-! ## What a turn does to a receive -/

/-- The causes that no receive raises before it delivers: Validate's of a packet that is no frame, and the overflow of OUT. -/
def NeverRaised (e : Err) : Prop := e = .pktTooShort ∨ e = .pktBadStart ∨ e = .pktBadDelim ∨ e = .outOverflow

/-- The receive goes on: its bytes are those it had, followed by the new ones. -/
structure GoesOn (s t : State) (new : Bytes) : Prop where
  inFlight : inFlight t = inFlight s ++ new
  params : t.params = s.params
  curCmd : t.curCmd = s.curCmd
  err : t.err = s.err
  notIdle : t.phase ≠ .idle
  notDispatch : t.phase ≠ .dispatch

/-- What a turn does to a receive, `new` being the bytes that the peer appends. -/
inductive ReceiveEffect (i : Instr) (s : State) (new : Bytes) : State → Prop where
  | goesOn {t : State} : GoesOn s t new → ReceiveEffect i s new t
  | failed {t : State} (e : Err) (r : Word) : ¬ NeverRaised e → Failed t e.code r → ReceiveEffect i s new t
  | delivered (p : Bytes) (u : State) : FrameShape s.params.maxPacketLen p → u.params = s.params →
      inFlight s ++ new = p ++ u.rxBuf ++ u.rxStream → ReceiveEffect i s new (deliver i p u)

theorem goesOn_refl {s : State} (hi : s.phase ≠ .idle) (hd : s.phase ≠ .dispatch) : GoesOn s s [] :=
  ⟨(List.append_nil _).symm, rfl, rfl, rfl, hi, hd⟩

/-- Of a frame Validate finds a fault in the payload or in the checksum only. -/
theorem not_neverRaised_of_validateOf {policy : HexCasePolicy} {max : Nat} {p : Bytes} {e : Err} (h : FrameShape max p)
    (hv : validateOf policy p = some e) : ¬ NeverRaised e := by
  obtain ⟨body, c0, c1, rfl, -⟩ := h
  rw [validateOf_parts, if_neg (not_not.mpr rfl), if_neg (not_not.mpr rfl)] at hv
  split_ifs at hv <;> cases hv <;> simp [NeverRaised]

/-- With its frame in hand a receive delivers it, sends the `+` first, or fails with Validate's error. -/
theorem receiveEffect_onFrame {i : Instr} (hi : IsReceive i) {s : State} {p rest : Bytes}
    (hshape : FrameShape s.params.maxPacketLen p) (hflight : inFlight s ++ [] = p ++ rest ++ s.rxStream) :
    ReceiveEffect i s [] (onFrame i p (scanned s rest [])) := by
  have delivers : ReceiveEffect i s [] (deliver i p (scanned s rest [])) := .delivered p _ hshape rfl hflight
  rcases onFrame_cases hi with hk | hk <;> rw [hk]
  · exact delivers
  · match hv : validateOf s.params.hexCase p, hmode : s.ackMode with
    | some e, _ =>
      rw [validateAndAck_of_error (s := scanned s rest []) hv]
      exact .failed e 0 (not_neverRaised_of_validateOf hshape hv) (failed_fail ..)
    | none, true =>
      rw [validateAndAck_of_ack (s := scanned s rest []) hv hmode]
      exact .goesOn ⟨hflight.symm, rfl, rfl, rfl, nofun, nofun⟩
    | none, false =>
      rw [validateAndAck_of_no_ack (s := scanned s rest []) hv hmode]
      exact delivers

/-- A step that scans. -/
theorem receiveEffect_scan {i : Instr} (hi : IsReceive i) {s t : State} {held : Bytes} (hm : 2 ≤ s.params.maxPacketLen)
    (h : ScansAfter s held) (ht : exec i s = .next t) : ReceiveEffect i s [] t := by
  obtain ⟨acc, he⟩ := exec_receive_scan hi h
  cases ht.symm.trans he
  have hflight : inFlight s ++ [] = held ++ s.rxBuf ++ s.rxStream :=
    (List.append_nil _).trans (inFlight_of_scansAfter h)
  have hspec := scan_spec s.params.maxPacketLen (held ++ s.rxBuf) .sop [] hm ⟨rfl, fun _ => rfl⟩
  match hr : scan s.params.maxPacketLen (held ++ s.rxBuf) .sop [] with
  | .frame p rest =>
    obtain ⟨htaken, hshape⟩ : held ++ s.rxBuf = p ++ rest ∧ FrameShape s.params.maxPacketLen p := by
      simpa only [hr, taken, List.nil_append] using hspec
    exact receiveEffect_onFrame hi hshape (htaken ▸ hflight)
  | .more pt acc' =>
    obtain ⟨htaken, -⟩ : held ++ s.rxBuf = taken acc' pt ∧ ScanOk s.params.maxPacketLen acc' pt := by
      simpa only [hr, taken, List.nil_append] using hspec
    rw [htaken] at hflight
    rcases refill_cases (.scan pt) (scanned s [] acc') with ⟨-, e⟩ | ⟨-, e⟩ <;> simp only [afterScan, e]
    · exact .failed .deadlineExpired 0 (by simp [NeverRaised]) (failed_scanFail ..)
    · exact .goesOn ⟨by simpa [inFlight, scanned] using hflight.symm, rfl, rfl, rfl, nofun, nofun⟩
  | .badSop b => exact .failed .unexpectedSop _ (by simp [NeverRaised]) (failed_scanFail ..)
  | .oversized => exact .failed .oversized _ (by simp [NeverRaised]) (failed_scanFail ..)

/-- The block's own step. -/
theorem receiveEffect_exec {i : Instr} {s t : State} (h : Receiving i s) (ht : exec i s = .next t) :
    ReceiveEffect i s [] t := by
  obtain ⟨hm, -⟩ := wf_facts h.inv.params
  have stays : ReceiveEffect i s [] s := .goesOn (goesOn_refl h.notIdle h.notDispatch)
  rcases h.phase_cases with hp | ⟨packet, p, answer, hp, hshape⟩ | ⟨pt, t0, w, answer, hp, harm, hok⟩
  · cases hl : s.link with
    | true => exact receiveEffect_scan h.receive hm (.inl ⟨hp, hl, rfl⟩) ht
    | false =>
      obtain ⟨u, hu, hfail, -⟩ := notConnectedFails s i hp hl
        (by rcases h.receive with rfl | ⟨v, rfl⟩ <;> simp)
      cases ht.symm.trans hu
      exact .failed .notConnected 0 (by simp [NeverRaised]) hfail
  · cases ht.symm.trans (exec_receive_plus h.receive hp)
    rcases afterTx_cases (deliver i p) answer s with ⟨-, e⟩ | ⟨-, e⟩ | ⟨-, e⟩ <;> rw [e]
    · exact stays
    · exact .delivered p s hshape rfl (by simp only [inFlight, hp, List.append_nil])
    · exact .failed .ioError 0 (by simp [NeverRaised]) (failed_fail ..)
  · have hgo := exec_receive_refilling h.receive hp
    rcases afterRefill_cases (scanFrom (onFrame i) pt) (.scan pt) answer s with
      ⟨e, -⟩ | ⟨rfl, -⟩ | ⟨c, e, hc⟩
    · cases ht.symm.trans (e ▸ hgo)
      exact stays
    · exact receiveEffect_scan h.receive hm (.inr ⟨pt, t0, w, hp, harm, hok, rfl⟩) ht
    · cases ht.symm.trans (e ▸ hgo)
      refine .failed c 0 ?_ (failed_scanFail ..)
      rcases hc with ⟨-, rfl⟩ | ⟨-, rfl⟩ | ⟨-, -, rfl⟩ | ⟨-, -, -, rfl⟩ <;> simp [NeverRaised]

/-- An event keeps the bytes in order: a chunk moves them from RXSTREAM to RXBUF. -/
theorem goesOn_eventEffect {i : Instr} {s t : State} (h : Receiving i s) (e : EventEffect s t) : GoesOn s t [] := by
  cases e with
  | opened hp | openFailed hp => rcases h.phase_cases with h | ⟨_, _, _, h, -⟩ | ⟨_, _, _, _, h, -⟩ <;> simp [hp] at h
  | @sent packet pt _ _ _ hp =>
    exact ⟨by cases pt <;> simp [inFlight, hp], rfl, rfl, rfl, nofun, nofun⟩
  | @chunk pt _ _ size hp =>
    refine ⟨?_, rfl, rfl, rfl, nofun, nofun⟩
    cases pt <;> simp [inFlight, hp, deliverChunk]
  | @noData pt _ _ _ hp =>
    exact ⟨by cases pt <;> simp [inFlight, hp], rfl, rfl, rfl, nofun, nofun⟩

theorem inFlight_peerSend (s : State) (bytes : Bytes) :
    inFlight { s with rxStream := s.rxStream ++ bytes } = inFlight s ++ bytes := by
  simp only [inFlight]
  split <;> simp

theorem receiveEffect_turnEffect {i : Instr} {s t : State} {a : Turn} (h : Receiving i s) (e : TurnEffect s a t) :
    ReceiveEffect i s (appendedBy a) t := by
  have same {t : State} (hf : inFlight t = inFlight s) (hp : t.params = s.params) (hc : t.curCmd = s.curCmd)
      (he : t.err = s.err) (hph : t.phase = s.phase) : ReceiveEffect i s [] t :=
    .goesOn ⟨hf.trans (List.append_nil _).symm, hp, hc, he, hph ▸ h.notIdle, hph ▸ h.notDispatch⟩
  cases e with
  | block e =>
    cases e with
    | idle hp => exact absurd hp h.notIdle
    | dispatched hp => exact absurd hp h.notDispatch
    | unknown _ hd => exact absurd h.word (hd i)
    | command _ _ hd he =>
      cases instr_of_decodeWord h.word hd
      exact receiveEffect_exec h he
  | read e =>
    obtain ⟨_, _, _, rfl, -⟩ := e
    exact same rfl rfl rfl rfl rfl
  | write e =>
    cases e with
    | abort => exact .failed .aborted 0 (by simp [NeverRaised]) (failed_abort s)
    | issue _ hp | arg _ hp | inLen _ hp | bytes _ _ hp _ => exact absurd hp h.notIdle
  | tick | peerClose => exact same rfl rfl rfl rfl rfl
  | peerSend bytes => exact .goesOn ⟨inFlight_peerSend s bytes, rfl, rfl, rfl, h.notIdle, h.notDispatch⟩
  | event e => exact .goesOn (goesOn_eventEffect h e)

/-! ## A step of a receive -/

theorem receiveEffect_agenda {i : Instr} {s t : State} {rest : List Turn} {new : Bytes}
    (h : ReceiveEffect i { s with agenda := rest } new t) : ReceiveEffect i s new t := by
  cases h with
  | goesOn h => exact .goesOn { h with }
  | failed e r hn hf => exact .failed e r hn hf
  | delivered p u hshape hp hf => exact .delivered p u hshape hp hf

/-- No turn writes the coming turns. -/
theorem turnEffect_agenda {s t : State} {a : Turn} (e : TurnEffect s a t) : t.agenda = s.agenda := by
  cases e with
  | block e => exact (sameFixed_blockEffect e).agenda
  | read e =>
    obtain ⟨_, _, _, rfl, -⟩ := e
    rfl
  | write e =>
    cases e with
    | abort => exact (sameFixed_abort s).agenda
    | issue | arg | inLen | bytes => rfl
  | tick | peerSend | peerClose => rfl
  | event e => exact (sameFixed_eventEffect e).agenda

theorem receiveEffect_step {i : Instr} {s t : State} (h : Receiving i s) (hs : step s = .next t) :
    ReceiveEffect i s ((s.agenda.take 1).flatMap appendedBy) t ∧ t.agenda = s.agenda.drop 1 := by
  rcases turnEffect_of_step hs with ⟨ha, e⟩ | ⟨a, rest, ha, e⟩ <;> rw [ha]
  · exact ⟨receiveEffect_turnEffect h e, (turnEffect_agenda e).trans ha⟩
  · have hrest : Receiving i { s with agenda := rest } := { h with inv := stateInv_agenda h.inv rest }
    refine ⟨?_, turnEffect_agenda e⟩
    simpa using receiveEffect_agenda (receiveEffect_turnEffect hrest e)

/-- A receive that goes on is still one. -/
theorem Receiving.of_goesOn {i : Instr} {s t : State} {new : Bytes} (h : Receiving i s) (hs : step s = .next t)
    (hg : GoesOn s t new) : Receiving i t where
  inv := stepKeepsInvariant s t h.inv hs
  receive := h.receive
  word := hg.curCmd ▸ h.word
  notIdle := hg.notIdle
  notDispatch := hg.notDispatch

theorem receiving_of_inReceive {s : State} (h : StateInv s) (hr : InReceive s) : ∃ i, Receiving i s := by
  obtain ⟨i, hw, hi⟩ := decodeWord_of_inReceive hr
  exact ⟨i, h, hi, hw, hr.2.1, hr.2.2⟩

/-! ## RECV_PACKET's errors (rule R250) -/

theorem code_of_not_neverRaised {e : Err} (h : ¬ NeverRaised e) :
    e.code ≠ 0x15 ∧ e.code ≠ 0x16 ∧ e.code ≠ 0x17 ∧ e.code ≠ 0x62 := by
  revert h
  unfold NeverRaised
  cases e <;> decide

/-- Settles O49: a RECV_PACKET delivers a frame, which fits in OUT, or fails with another cause. -/
theorem recvPacketErrorsExcluded : Obligations.RecvPacketErrorsExcluded := by
  intro s t h hr hc hs herr
  obtain ⟨v, hw⟩ : ∃ v, decodeWord s.curCmd = .ok (.recvPacket v) := by
    rcases hc with hc | hc <;> rw [hc]
    exacts [⟨_, decodeWord_encode (.recvPacket false)⟩, ⟨_, decodeWord_encode (.recvPacket true)⟩]
  obtain ⟨effect, -⟩ := receiveEffect_step ⟨h, .inr ⟨v, rfl⟩, hw, hr.2.1, hr.2.2⟩ hs
  cases effect with
  | goesOn hg =>
    obtain ⟨-, hclear, -⟩ := h.busy hr.2.1
    simp [hg.err, hclear] at herr
  | failed e r hn hf => exact hf.errCode ▸ code_of_not_neverRaised hn
  | delivered p u hshape hp _ =>
    have hend := (completed_deliverRaw (s := u) (hp ▸ h.params) (hp ▸ hshape)).1
    exact absurd (hend.err.symm.trans herr) (by simp)

/-! ## A receive that completes (rules R260, R263) -/

theorem phase_complete (out : Bytes) (r : Word) (s : State) : (complete out r s).phase = .idle := by
  rcases complete_cases out r s with ⟨-, e⟩ | ⟨-, e⟩ <;> rw [e] <;> rfl

theorem phase_deliver (i : Instr) (p : Bytes) (s : State) : (deliver i p s).phase = .idle := by
  unfold deliver
  split
  · unfold deliverDecoded
    split
    exacts [rfl, phase_complete ..]
  · exact phase_complete ..

theorem decodes_of_deliverDecoded {s : State} (hp : s.params.wf = true) {body : Bytes} {c0 c1 : Byte}
    (herr : (deliverDecoded (0x24 :: body ++ [0x23, c0, c1]) s).err = false) :
    Decodes body (deliverDecoded (0x24 :: body ++ [0x23, c0, c1]) s).outBytes := by
  obtain ⟨hfits, hlong, hbad⟩ := deliverDecoded_result hp body c0 c1
  match hd : decodeBytesOf body with
  | .error e =>
    have hfail := hbad e.code ((decodeBytesOf_eq_error_iff ..).mp ⟨e, hd, rfl⟩)
    exact absurd (hfail.err.symm.trans herr) (by simp)
  | .ok d =>
    have hd := (decodeBytesOf_eq_ok_iff ..).mp hd
    by_cases hl : d.length ≤ s.params.outCap
    · rwa [(hfits d hd hl).1.outBytes]
    · exact absurd ((hlong d hd (by omega)).err.symm.trans herr) (by simp)

/-- A receive that completes has returned its frame, or the payload decoded. -/
theorem returned_deliver {i : Instr} {s u : State} (hw : decodeWord s.curCmd = .ok i) (hp : u.params.wf = true) {p : Bytes}
    (hshape : FrameShape u.params.maxPacketLen p) (herr : (deliver i p u).err = false) :
    Returned s (deliver i p u) p := by
  have raw {v : Bool} (hc : s.curCmd = encode (.recvPacket v)) : (deliver i p u).outBytes = p := by
    obtain rfl := instr_of_decodeWord hw (hc ▸ decodeWord_encode _)
    exact (completed_deliverRaw hp hshape).1.outBytes
  refine ⟨fun hc => hc.elim (raw (v := false)) (raw (v := true)), fun hc => ?_⟩
  have hword : decodeWord s.curCmd = .ok .recvAndDecode := hc ▸ decodeWord_encode .recvAndDecode
  obtain rfl := instr_of_decodeWord hw hword
  obtain ⟨body, c0, c1, rfl, -⟩ := hshape
  exact ⟨body, c0, c1, rfl, decodes_of_deliverDecoded hp herr⟩

theorem step_of_run_succ {M : Host.Core} {k : Nat} {s t : M.State} (h : M.run (k + 1) s = .next t) :
    ∃ u, M.step s = .next u ∧ M.run k u = .next t := by
  rw [Host.Core.run] at h
  split at h
  next u hu => exact ⟨u, hu, h⟩
  all_goals cases h

/-- From any point of a receive to the step that completes it: the frame is delivered, and the bytes in flight with those
the peer appends are the frame followed by what is left. By induction on the turns. -/
theorem receive_run {i : Instr} (n : Nat) : ∀ {s t : State}, Receiving i s → core.run n s = .next t →
    (∀ m u, m < n → core.run m s = .next u → u.phase ≠ .idle) → t.phase = .idle → t.err = false →
    ∃ p u, t = deliver i p u ∧ u.params = s.params ∧ FrameShape s.params.maxPacketLen p ∧
      inFlight s ++ (s.agenda.take n).flatMap appendedBy = p ++ u.rxBuf ++ u.rxStream := by
  induction n with
  | zero =>
    intro s t h hrun _ hidle _
    cases hrun
    exact absurd hidle h.notIdle
  | succ n ih =>
    intro s t h hrun hbefore hidle herr
    obtain ⟨v, hs, hrun⟩ := step_of_run_succ (M := core) hrun
    obtain ⟨effect, hagenda⟩ := receiveEffect_step h hs
    have hlast : v.phase = .idle → n = 0 := by
      intro hv
      by_contra hn
      exact hbefore 1 v (by omega) (run_succ_of_step (M := core) hs 0) hv
    cases effect with
    | goesOn hg =>
      obtain ⟨p, u, ht, hp, hshape, hflight⟩ := ih (h.of_goesOn hs hg) hrun
        (fun m u hm hu => hbefore (m + 1) u (by omega) ((run_succ_of_step (M := core) hs m).trans hu)) hidle herr
      refine ⟨p, u, ht, hp.trans hg.params, hg.params ▸ hshape, ?_⟩
      rw [← hflight, hg.inFlight, hagenda, Nat.add_comm n 1, List.take_add, List.flatMap_append, List.append_assoc]
    | failed e r _ hf =>
      obtain rfl := hlast hf.idle
      cases hrun
      exact absurd (hf.err.symm.trans herr) (by simp)
    | delivered p u hshape hp hflight =>
      obtain rfl := hlast (phase_deliver i p u)
      cases hrun
      exact ⟨p, u, rfl, hp, hshape, hflight⟩

/-- Settles O50: at the start no byte has been taken, and delivering the frame leaves RXBUF and RXSTREAM. -/
theorem receiveConservesTheStream : Obligations.ReceiveConservesTheStream := by
  intro n s t h hr hp _ hrun hbefore hidle herr
  obtain ⟨i, hreceiving⟩ := receiving_of_inReceive h hr
  obtain ⟨p, u, rfl, hparams, hshape, hflight⟩ := receive_run n hreceiving hrun hbefore hidle herr
  have leaves : Leaves {} u (deliver i p u) := (leaves_deliver i p).toLeaves
  refine ⟨p, ?_, hshape, returned_deliver hreceiving.word (hparams ▸ h.params) (hparams ▸ hshape) herr⟩
  rw [leaves.rxBuf rfl, (leaves.transport rfl).rxStream, ← hflight]
  simp only [inFlight, hp]

end Sys2Proof.Machine
end

section
/-! SUPPORT. Construction and reset (70_reset_and_hazards.md rules R310, R311): the answer to each check, in the rule's order,
the configuration held in its registers, and what the block constructed holds. -/
namespace Sys2Proof.Machine
open Sys2Proof.Safety

/-! ## The configuration's checks and registers (10_state.md rule R28) -/

theorem portOk_iff (port : Int) : portOk port = true ↔ 1 ≤ port ∧ port ≤ 65535 := by simp [portOk]

theorem timeoutOk_iff (ticks : Int) : timeoutOk ticks = true ↔ 0 < ticks := by simp [timeoutOk]

theorem timeoutFits_iff (ticks : Int) : timeoutFits ticks = true ↔ ticks < 2 ^ 32 := by simp [timeoutFits]

/-- A register holds any value that fits its width. -/
theorem toNat_ofInt_of_fits {n : Nat} {v : Int} (hlow : 0 ≤ v) (hhigh : v < 2 ^ n) : ((BitVec.ofInt n v).toNat : Int) = v := by
  rw [BitVec.toNat_ofInt, Nat.cast_pow, Nat.cast_ofNat, Int.emod_eq_of_lt hlow hhigh, Int.toNat_of_nonneg hlow]

theorem toNat_ofInt_of_portOk {port : Int} (h : portOk port = true) : ((BitVec.ofInt 16 port).toNat : Int) = port := by
  obtain ⟨hlow, hhigh⟩ := (portOk_iff port).mp h
  exact toNat_ofInt_of_fits (by omega) (by omega)

theorem toNat_ofInt_of_timeoutFits {ticks : Int} (hpos : timeoutOk ticks = true) (hfits : timeoutFits ticks = true) :
    ((BitVec.ofInt 32 ticks).toNat : Int) = ticks :=
  toNat_ofInt_of_fits ((timeoutOk_iff ticks).mp hpos).le ((timeoutFits_iff ticks).mp hfits)

/-! ## Construction (rule R310) -/

section
variable {p : Params} {host : Bytes} {port : Int} {timeout : Option Int}

theorem construct_of_badPort (hport : portOk port = false) : construct p host port timeout = .fault .badPort := by
  simp [construct, hport]

theorem construct_of_badTimeout (hport : portOk port = true)
    (htime : timeoutOk (timeout.getD (p.defaultRxTimeout : Int)) = false) :
    construct p host port timeout = .fault .badTimeout := by
  simp [construct, hport, htime]

theorem construct_of_illFormed (hport : portOk port = true)
    (htime : timeoutOk (timeout.getD (p.defaultRxTimeout : Int)) = true)
    (hwf : (p.wf && timeoutFits (timeout.getD (p.defaultRxTimeout : Int))) = false) :
    construct p host port timeout = .refused .illFormedInstance := by
  simp [construct, hport, htime, hwf]

/-- Construction succeeds exactly when every check passes, with the initial state of the configuration. -/
theorem construct_eq_next_iff {s : State} :
    construct p host port timeout = .next s ↔
      portOk port = true ∧ timeoutOk (timeout.getD (p.defaultRxTimeout : Int)) = true ∧ p.wf = true ∧
        timeoutFits (timeout.getD (p.defaultRxTimeout : Int)) = true ∧
        State.initial p host (BitVec.ofInt 16 port) (BitVec.ofInt 32 (timeout.getD (p.defaultRxTimeout : Int))) = s := by
  cases hport : portOk port with
  | false => simp [construct_of_badPort hport]
  | true =>
    cases htime : timeoutOk (timeout.getD (p.defaultRxTimeout : Int)) with
    | false => simp [construct_of_badTimeout hport htime]
    | true =>
      cases hwf : p.wf && timeoutFits (timeout.getD (p.defaultRxTimeout : Int)) with
      | false =>
        rw [construct_of_illFormed hport htime hwf]
        rcases Bool.and_eq_false_iff.mp hwf with h | h <;> simp [h]
      | true =>
        obtain ⟨hparams, hfits⟩ := Bool.and_eq_true_iff.mp hwf
        simp [construct, hport, htime, hparams, hfits]

end

/-- Settles O56: the answer to each check, and the registers of the block that passes them all. -/
theorem constructChecks : Obligations.ConstructChecks := by
  intro p host port timeout ticks
  have hport (hlow : 1 ≤ port) (hhigh : port ≤ 65535) : portOk port = true := (portOk_iff port).mpr ⟨hlow, hhigh⟩
  have htime (hpos : 0 < ticks) : timeoutOk ticks = true := (timeoutOk_iff ticks).mpr hpos
  have hill (hlow : 1 ≤ port) (hhigh : port ≤ 65535) (hpos : 0 < ticks) (hwf : p.wf = false) :
      construct p host port timeout = .refused .illFormedInstance :=
    construct_of_illFormed (hport hlow hhigh) (htime hpos) (by rw [hwf, Bool.false_and])
  refine ⟨fun hout => ?_, fun hlow hhigh hle => ?_, hill, fun hlow hhigh hpos hzero => ?_,
    fun hlow hhigh hpos hfits hwf => ?_⟩
  · exact construct_of_badPort (Bool.eq_false_iff.mpr fun h => by have := (portOk_iff port).mp h; omega)
  · exact construct_of_badTimeout (hport hlow hhigh)
      (Bool.eq_false_iff.mpr fun h => absurd ((timeoutOk_iff ticks).mp h) hle.not_gt)
  · have hwf : p.wf = false := Bool.eq_false_iff.mpr fun h => by have := wf_facts h; omega
    exact hill hlow hhigh hpos hwf
  · have hfits := (timeoutFits_iff ticks).mpr hfits
    exact ⟨_, construct_eq_next_iff.mpr ⟨hport hlow hhigh, htime hpos, hwf, hfits, rfl⟩, rfl, rfl,
      toNat_ofInt_of_portOk (hport hlow hhigh), toNat_ofInt_of_timeoutFits (htime hpos) hfits⟩

/-! ## What reset leaves (rule R311) -/

/-- STATUS at reset: ACK_MODE alone is 1. -/
theorem statusWord_initial (p : Params) (host : Bytes) (port : BitVec 16) (timeout : Word) :
    (State.initial p host port timeout).statusWord = 0x00000010 := by
  simp only [State.statusWord, State.busy, State.initial]
  decide

/-- Settles O57: construction gives the initial state, and its registers hold the port and the timeout. -/
theorem resetStateValues : Obligations.ResetStateValues := by
  intro p host port timeout s h
  obtain ⟨hport, htime, -, hfits, rfl⟩ := construct_eq_next_iff.mp h
  exact ⟨rfl, rfl, toNat_ofInt_of_portOk hport, toNat_ofInt_of_timeoutFits htime hfits, rfl, rfl, rfl, rfl, rfl, rfl, rfl,
    statusWord_initial .., rfl, rfl, rfl, rfl, rfl, rfl, rfl⟩

/-- The initial state meets the invariant as soon as its parameters, port and timeout are legal: it is idle with no link, no
bytes held and a clear record. -/
theorem stateInv_initial {p : Params} {host : Bytes} {port : BitVec 16} {timeout : Word} (hwf : p.wf = true)
    (hport : 0 < port.toNat) (htimeout : 0 < timeout.toNat) : StateInv (State.initial p host port timeout) where
  params := hwf
  timeout := htimeout
  port := hport
  memWf := rfl
  memInWindows := nofun
  rxBuf := Nat.zero_le _
  rxBufUnlinked := fun _ => rfl
  linkOpen := nofun
  closed := fun _ => ⟨rfl, rfl⟩
  outLen := Nat.zero_le _
  arg := (by decide : (0 : Word).extractLsb' 16 16 = 0)
  busy := fun hp => absurd rfl hp
  errDone := nofun
  errCode := rfl
  settled := nofun
  tArm := nofun
  phase := ⟨rfl, rfl⟩

/-- Settles O58: the parameters and the configuration of `State.reset` are legal. -/
theorem invariantAtReset : Obligations.InvariantAtReset :=
  stateInv_initial (by decide) (by decide) (by decide)

/-- Settles O59: a block that passed the checks holds a port and a timeout above 0. -/
theorem invariantAtConstruction : Obligations.InvariantAtConstruction := by
  intro p host port timeout s h
  obtain ⟨hport, htime, hwf, hfits, rfl⟩ := construct_eq_next_iff.mp h
  have hportReg := toNat_ofInt_of_portOk hport
  have htimeReg := toNat_ofInt_of_timeoutFits htime hfits
  have hportPos := (portOk_iff port).mp hport
  have htimePos := (timeoutOk_iff _).mp htime
  exact stateInv_initial hwf (by omega) (by omega)

end Sys2Proof.Machine
end
